-- ==== Sys2Proof/Word.lean ====
section
/-! DEFINITION. The widths of the numbers the manual lays out in fields and octets (00_scope.md section 5). -/

namespace Sys2Proof

/-- One octet of a span message, a request frame or a response (00_scope.md section 5). -/
abbrev Octet := BitVec 8

/-- A number of two octets, most significant octet first. -/
abbrev Half := BitVec 16

/-- A station number as the contention field and the destination field carry it: six bits (R131, R132). -/
abbrev Station := BitVec 6

/-- A channel number as the span message carries it: ten bits, 0 to 1023 (R132). -/
abbrev Channel := BitVec 10

/-- A sequence number, 0 to 255, wrapping from 255 to 0 (00_scope.md section 5). -/
abbrev Seq := BitVec 8

/-- A station counter: 16 bits, saturating at 65535 (R166). -/
abbrev Counter := BitVec 16

/-- A set of station numbers 1 to 62, as the 64-bit map of R174: bit n is set when station n is a member. -/
abbrev StationSet := BitVec 64

end Sys2Proof
end

