-- ==== Sys2Proof/Syntax.lean ====
section
/-! DEFINITION. The commands of the block, one constructor for each row of spec/opcode_table.json, and the types
of their operands; the span message (R132, R133) and the startup record (R151). -/

namespace Sys2Proof

/-- The fields of a span message that do not depend on its kind (R132): the six low bits of the contention field,
the four flag bits, the sender's epoch, the channel and the destination. -/
structure Header where
  source : Station
  flags : BitVec 4
  epoch : Octet
  channel : Channel
  destination : Station
  deriving DecidableEq, Repr, Inhabited

/-- The reason a DENY carries in its body: 1 RELEASING, 2 NOT_OWNER (R133). -/
inductive DenyReason where
  | releasing
  | notOwner
  deriving DecidableEq, Repr, Inhabited

/-- The thirteen message kinds with their bodies (R133). -/
inductive Body where
  | claim
  | hold
  | announce
  | join
  | admission (next : Seq)
  | deny (reason : DenyReason)
  | leave
  | left
  | drain
  | drained
  | release
  | data (sequence : Seq) (payload : List Octet)
  | beacon (interval : Octet)
  deriving DecidableEq, Repr, Inhabited

/-- A span message (R132). -/
structure Message where
  header : Header
  body : Body
  deriving DecidableEq, Repr, Inhabited

/-- The startup record: one value for each field, in the order of the field index (R151), at the width LOAD_STARTUP
carries it (R171). -/
structure StartupRecord where
  rateClass : Octet
  presenceInterval : Octet
  peerMultiple : Octet
  listenMultiple : Octet
  claimWindow : Octet
  responseTimeout : Octet
  drainTimeout : Octet
  attemptLimit : Octet
  limitQ0 : Half
  limitQ1 : Half
  limitQ2 : Half
  limitQ3 : Half
  limitQM : Half
  transmitLimit : Octet
  attentionMask : Octet
  deriving DecidableEq, Repr, Inhabited

/-- The parameters of SET_FILTER as its frame carries them (R171). -/
structure FilterParameters where
  index : Octet
  enable : Octet
  channelLow : Half
  channelHigh : Half
  offset : Octet
  value : Half
  mask : Half
  deriving DecidableEq, Repr, Inhabited

/-- The two ways an attempt fails (R137): a bit sensed differs from the bit driven, or the message heard back whole
is not intact. -/
inductive AttemptFailure where
  | echoMismatch
  | checkError
  deriving DecidableEq, Repr, Inhabited

/-- The two edges of RSTn (R165, R189): its assertion, and its deassertion, at which SID[5:0] is sampled and a transaction
whose CSn is already asserted (`selected`) is one the port does not take. -/
inductive ResetEdge where
  | asserted
  | released (straps : Station) (selected : Bool)
  deriving DecidableEq, Repr, Inhabited

/-- The commands: one constructor for each row of spec/opcode_table.json, in the table's order. Every request carries
its tag octet (R171); a channel number of a request is two octets, 0 to 65535 (R171); a message row carries the message's
header; an expiry row names the slot, the context or the peer whose timer expires. -/
inductive Instr where
  -- requests of the local port (R171)
  | loadStartup (tag : Octet) (fields : StartupRecord)
  | attach (tag : Octet)
  | withdraw (tag : Octet)
  | restart (tag : Octet)
  | readStation (tag : Octet)
  | claimRequest (tag : Octet) (channel : Half)
  | releaseRequest (tag : Octet) (channel : Half)
  | send (tag : Octet) (channel : Half) (length : Octet) (payload : List Octet)
  | joinRequest (tag : Octet) (channel : Half)
  | leaveRequest (tag : Octet) (channel : Half)
  | setAction (tag : Octet) (channel : Half) (actions : Octet)
  | readChannel (tag : Octet) (channel : Half)
  | setFilter (tag : Octet) (parameters : FilterParameters)
  | readFilter (tag : Octet) (index : Octet)
  | take (tag : Octet) (queue : Octet)
  | flush (tag : Octet) (queue : Octet)
  | readPeer (tag : Octet) (station : Octet)
  | readEvent (tag : Octet)
  | abort (tag : Octet)
  -- transactions that carry no request (R169, R170)
  | badRequest (code : Octet)
  | incompleteRequest (octets : List Octet) (bits : Nat)
  -- the reset pin (R165, R189)
  | powerOnReset (edge : ResetEdge)
  -- the station's own transmissions (R137)
  | transmitAttempt
  | lostContention
  | echo
  | failedAttempt (cause : AttemptFailure)
  -- messages heard (R135)
  | claimMessage (header : Header)
  | holdMessage (header : Header)
  | announceMessage (header : Header)
  | joinMessage (header : Header)
  | admitMessage (header : Header) (next : Seq)
  | denyMessage (header : Header) (reason : Octet)
  | leaveMessage (header : Header)
  | leftMessage (header : Header)
  | drainMessage (header : Header)
  | drainedMessage (header : Header)
  | releaseMessage (header : Header)
  | dataMessage (header : Header) (sequence : Seq) (length : Octet) (payload : List Octet)
  | beaconMessage (header : Header) (interval : Octet)
  | malformedMessage (octets : List Octet)
  | duplicateNumberEvent
  -- timers (R190)
  | claimWindowExpiry (slot : Fin 32)
  | resendTimerExpiry (slot : Fin 32)
  | drainTimerExpiry (slot : Fin 32)
  | joinResponseTimerExpiry (context : Fin 64)
  | leaveResponseTimerExpiry (context : Fin 64)
  | drainWaitTimerExpiry (context : Fin 64)
  | peerTimerExpiry (station : Station)
  | presenceTimerExpiry
  | listenTimerExpiry
  deriving DecidableEq, Repr, Inhabited

end Sys2Proof
end

