-- ==== Sys2Proof/Config.lean ====
section
/-! DEFINITION. What the part fixes for good (the capacity of each collection) and the one free value. -/

namespace Sys2Proof.Config

/-- Ownership slots, numbered 0 to 31 (R23). -/
abbrev slotCount : Nat := 32

/-- Subscription contexts, numbered 0 to 63 (R65). -/
abbrev contextCount : Nat := 64

/-- Cell buffers of the pool (R99). -/
abbrev bufferCount : Nat := 256

/-- Places of the transmit FIFO (R107). -/
abbrev fifoPlaces : Nat := 64

/-- Replies the reply queue holds (R144). -/
abbrev replyPlaces : Nat := 32

/-- Entries the Pending Request Table holds (R175). -/
abbrev requestPlaces : Nat := 16

/-- Event records plus reserved places the Event Queue holds (R180). -/
abbrev eventPlaces : Nat := 64

/-- The consecutive failures that take the station off the line (R141). -/
abbrev failureLimit : Nat := 32

/-- FREE VALUE (log 7). What reading the startup record would give while none is loaded: R151 says its fields then
have no value and no block reads them. Nothing constrains it. -/
opaque unloadedRecord : StartupRecord

end Sys2Proof.Config
end

