-- ==== Sys2Proof/Decode.lean ====
section
/-! DEFINITION. The formats a bus partner sees on the way in: the span message with its check (R131 to R134), the
request frame of the local port (R167 to R171), and the word of spec/opcode_table.json (no row gives bits). -/

namespace Sys2Proof

/-- The table's rows give no bits, so no word spells a command (log 15). -/
def decodeTableWord (_nbits _w : Nat) : Option Instr := none

/-! ### Octets -/

/-- The most significant octet of a two-octet number. -/
def highOctet (h : Half) : Octet := h.extractLsb' 8 8

/-- The least significant octet of a two-octet number. -/
def lowOctet (h : Half) : Octet := h.extractLsb' 0 8

/-- Two octets read as a number, most significant octet first (R132, R171, R174). -/
def joinOctets (high low : Octet) : Half := high ++ low

/-- A two-octet number as octets, most significant octet first. -/
def halfOctets (h : Half) : List Octet := [highOctet h, lowOctet h]

/-! ### The span message -/

/-- The code a kind carries in octet 1 (R133). -/
def Body.kindCode : Body → BitVec 4
  | .claim => 1
  | .hold => 2
  | .announce => 3
  | .join => 4
  | .admission _ => 5
  | .deny _ => 6
  | .leave => 7
  | .left => 8
  | .drain => 9
  | .drained => 10
  | .release => 11
  | .data _ _ => 12
  | .beacon _ => 13

/-- The class of a message: 0 for the protocol kinds, 1 for BEACON, 2 for DATA (R131, R133). -/
def Body.messageClass : Body → BitVec 2
  | .data _ _ => 2
  | .beacon _ => 1
  | .claim | .hold | .announce | .join | .admission _ | .deny _ | .leave | .left | .drain | .drained | .release => 0

/-- The code of a DENY reason (R133). -/
def DenyReason.code : DenyReason → Octet
  | .releasing => 1
  | .notOwner => 2

/-- The reason a DENY's body octet names; any other octet makes the message malformed (R134). -/
def DenyReason.ofCode? (r : Octet) : Option DenyReason :=
  match r.toNat with
  | 1 => some .releasing
  | 2 => some .notOwner
  | _ => none

/-- The body octets of a message (R133). -/
def Body.octets : Body → List Octet
  | .admission next => [next]
  | .deny reason => [reason.code]
  | .data sequence payload => sequence :: BitVec.ofNat 8 payload.length :: payload
  | .beacon interval => [interval]
  | .claim | .hold | .announce | .join | .leave | .left | .drain | .drained | .release => []

/-- The contention field: class times 64 plus source station (R131). -/
def Message.contention (m : Message) : Octet := m.body.messageClass ++ m.header.source

/-- Channel and destination as octets 3 and 4 hold them (R132). -/
def Header.address (h : Header) : Half := h.channel ++ h.destination

/-- The octets of a message before its check (R132). -/
def Message.unchecked (m : Message) : List Octet :=
  m.contention :: (m.body.kindCode ++ m.header.flags) :: m.header.epoch ::
    highOctet m.header.address :: lowOctet m.header.address :: m.body.octets

/-- One bit entering the check register: generator x^16 + x^12 + x^5 + 1 (R132). -/
def checkBit (crc : Half) (bit : Bool) : Half :=
  if crc.msb ^^ bit then (crc <<< 1) ^^^ 0x1021 else crc <<< 1

/-- One octet entering the check register, most significant bit first (R132). -/
def checkOctet (crc : Half) (o : Octet) : Half :=
  [o.getLsbD 7, o.getLsbD 6, o.getLsbD 5, o.getLsbD 4, o.getLsbD 3, o.getLsbD 2, o.getLsbD 1, o.getLsbD 0].foldl checkBit crc

/-- The 16-bit check over a list of octets: remainder preset to all ones, no inversion of the result (R132). -/
def checkOf (octets : List Octet) : Half := octets.foldl checkOctet 0xFFFF

/-- The octets of a message on the line, check last (R132). -/
def Message.octets (m : Message) : List Octet := m.unchecked ++ halfOctets (checkOf m.unchecked)

/-- A DATA body whose length octet and payload agree and whose length is 1 to 64; otherwise the message is
malformed (R134). -/
def dataBody? (sequence : Seq) (length : Octet) (payload : List Octet) : Option Body :=
  if 1 ≤ length.toNat ∧ length.toNat ≤ 64 ∧ payload.length = length.toNat then some (.data sequence payload) else none

/-- A DENY body with one of the two reasons; otherwise the message is malformed (R134). -/
def denyBody? (reason : Octet) : Option Body := (DenyReason.ofCode? reason).map .deny

/-- The body that a kind code and the octets after octet 4 spell; none for a code that is no kind, a length that is
not the kind's, a DATA length out of range or a DENY reason out of range (R133, R134). -/
def parseBody (code : BitVec 4) (body : List Octet) : Option Body :=
  match code.toNat, body with
  | 1, [] => some .claim
  | 2, [] => some .hold
  | 3, [] => some .announce
  | 4, [] => some .join
  | 5, [next] => some (.admission next)
  | 6, [reason] => denyBody? reason
  | 7, [] => some .leave
  | 8, [] => some .left
  | 9, [] => some .drain
  | 10, [] => some .drained
  | 11, [] => some .release
  | 12, sequence :: length :: payload => dataBody? sequence length payload
  | 13, [interval] => some (.beacon interval)
  | _, _ => none

/-- The header tests of R134: the source is not 0 or 63 and the epoch is not 0. -/
def Header.valid (h : Header) : Bool := h.source ≠ 0 && h.source ≠ 63 && h.epoch ≠ 0

/-- The header the first five octets of a message spell (R132). -/
def parseHeader (o0 o1 o2 o3 o4 : Octet) : Header where
  source := o0.extractLsb' 0 6
  flags := o1.extractLsb' 0 4
  epoch := o2
  channel := (joinOctets o3 o4).extractLsb' 6 10
  destination := (joinOctets o3 o4).extractLsb' 0 6

/-- The octets before the check, read as a message: kind, body, class of the kind, source and epoch (R132 to R134). -/
def parseUnchecked (octets : List Octet) : Option Message :=
  match octets with
  | o0 :: o1 :: o2 :: o3 :: o4 :: rest =>
    match parseBody (o1.extractLsb' 4 4) rest with
    | some body =>
      let header := parseHeader o0 o1 o2 o3 o4
      if o0.extractLsb' 6 2 = body.messageClass ∧ header.valid = true then some ⟨header, body⟩ else none
    | none => none
  | _ => none

/-- The octets heard between two idle gaps, read as the receiver reads them: the last two are the check over all
before them. None means malformed (R134). -/
def parseMessage (heard : List Octet) : Option Message :=
  let body := heard.take (heard.length - 2)
  if heard.drop (heard.length - 2) = halfOctets (checkOf body) then parseUnchecked body else none

/-! ### The request frame -/

/-- What the octets of a transaction come to (R167, R169, R170): the request phase is not over, the code octet is no
request code, or a request. -/
inductive Frame where
  | incomplete
  | badCode (code : Octet)
  | request (command : Instr)
  deriving DecidableEq, Repr

/-- The twenty parameter octets of LOAD_STARTUP (R171). -/
def parseStartup : List Octet → Option StartupRecord
  | a :: b :: c :: d :: e :: f :: g :: h :: q0h :: q0l :: q1h :: q1l :: q2h :: q2l :: q3h :: q3l :: qmh :: qml :: t :: m :: _ =>
    some ⟨a, b, c, d, e, f, g, h, joinOctets q0h q0l, joinOctets q1h q1l, joinOctets q2h q2l, joinOctets q3h q3l,
      joinOctets qmh qml, t, m⟩
  | _ => none

/-- The eleven parameter octets of SET_FILTER (R171). -/
def parseFilter : List Octet → Option FilterParameters
  | i :: e :: lh :: ll :: hh :: hl :: o :: vh :: vl :: mh :: ml :: _ =>
    some ⟨i, e, joinOctets lh ll, joinOctets hh hl, o, joinOctets vh vl, joinOctets mh ml⟩
  | _ => none

/-- A channel number parameter: two octets, most significant first (R171). -/
def parseChannel : List Octet → Option Half
  | h :: l :: _ => some (joinOctets h l)
  | _ => none

/-- A parameter of one octet: a queue number, a filter index or a station number (R171). -/
def parseOctet : List Octet → Option Octet
  | o :: _ => some o
  | [] => none

/-- The parameters of SEND: channel, length octet, and as many payload octets as it states (R171). -/
def parseSend (tag : Octet) : List Octet → Option Instr
  | h :: l :: n :: rest =>
    if n.toNat ≤ rest.length then some (.send tag (joinOctets h l) n (rest.take n.toNat)) else none
  | _ => none

/-- The parameters of SET_ACTION (R171). -/
def parseAction (tag : Octet) : List Octet → Option Instr
  | h :: l :: a :: _ => some (.setAction tag (joinOctets h l) a)
  | _ => none

/-- The request a code, a tag and the octets after the tag spell, none while the frame is not complete; octets after
the last request octet are not read (R167, R171). -/
def parseRequest (code : Nat) (tag : Octet) (parameters : List Octet) : Option Instr :=
  match code with
  | 1 => (parseStartup parameters).map (.loadStartup tag)
  | 2 => some (.attach tag)
  | 3 => some (.withdraw tag)
  | 4 => some (.restart tag)
  | 5 => some (.readStation tag)
  | 6 => (parseChannel parameters).map (.claimRequest tag)
  | 7 => (parseChannel parameters).map (.releaseRequest tag)
  | 8 => parseSend tag parameters
  | 9 => (parseChannel parameters).map (.joinRequest tag)
  | 10 => (parseChannel parameters).map (.leaveRequest tag)
  | 11 => parseAction tag parameters
  | 12 => (parseChannel parameters).map (.readChannel tag)
  | 13 => (parseFilter parameters).map (.setFilter tag)
  | 14 => (parseOctet parameters).map (.readFilter tag)
  | 15 => (parseOctet parameters).map (.take tag)
  | 16 => (parseOctet parameters).map (.flush tag)
  | 17 => (parseOctet parameters).map (.readPeer tag)
  | 18 => some (.readEvent tag)
  | 19 => some (.abort tag)
  | _ => none

/-- A request code octet: 1 to 19 (R170, R171). -/
def isRequestCode (code : Octet) : Bool := 1 ≤ code.toNat && code.toNat ≤ 19

/-- The octets shifted in during one transaction (R167 to R171). -/
def decodeRequest : List Octet → Frame
  | [] => .incomplete
  | code :: rest =>
    if isRequestCode code then
      match rest with
      | [] => .incomplete
      | tag :: parameters =>
        match parseRequest code.toNat tag parameters with
        | some command => .request command
        | none => .incomplete
    else .badCode code

/-- The twenty octets LOAD_STARTUP carries (R171). -/
def StartupRecord.octets (r : StartupRecord) : List Octet :=
  [r.rateClass, r.presenceInterval, r.peerMultiple, r.listenMultiple, r.claimWindow, r.responseTimeout, r.drainTimeout,
    r.attemptLimit] ++ halfOctets r.limitQ0 ++ halfOctets r.limitQ1 ++ halfOctets r.limitQ2 ++ halfOctets r.limitQ3 ++
    halfOctets r.limitQM ++ [r.transmitLimit, r.attentionMask]

/-- The eleven octets SET_FILTER carries (R171). -/
def FilterParameters.octets (p : FilterParameters) : List Octet :=
  [p.index, p.enable] ++ halfOctets p.channelLow ++ halfOctets p.channelHigh ++ [p.offset] ++ halfOctets p.value ++
    halfOctets p.mask

/-- The frame of a request (R167, R171); none for a command that is not a request. -/
def encodeRequest : Instr → Option (List Octet)
  | .loadStartup tag fields => some (1 :: tag :: fields.octets)
  | .attach tag => some [2, tag]
  | .withdraw tag => some [3, tag]
  | .restart tag => some [4, tag]
  | .readStation tag => some [5, tag]
  | .claimRequest tag channel => some (6 :: tag :: halfOctets channel)
  | .releaseRequest tag channel => some (7 :: tag :: halfOctets channel)
  | .send tag channel length payload => some (8 :: tag :: (halfOctets channel ++ length :: payload))
  | .joinRequest tag channel => some (9 :: tag :: halfOctets channel)
  | .leaveRequest tag channel => some (10 :: tag :: halfOctets channel)
  | .setAction tag channel actions => some (11 :: tag :: (halfOctets channel ++ [actions]))
  | .readChannel tag channel => some (12 :: tag :: halfOctets channel)
  | .setFilter tag parameters => some (13 :: tag :: parameters.octets)
  | .readFilter tag index => some [14, tag, index]
  | .take tag queue => some [15, tag, queue]
  | .flush tag queue => some [16, tag, queue]
  | .readPeer tag station => some [17, tag, station]
  | .readEvent tag => some [18, tag]
  | .abort tag => some [19, tag]
  | .badRequest _ | .incompleteRequest _ _ | .powerOnReset _ | .transmitAttempt | .lostContention | .echo
  | .failedAttempt _ | .claimMessage _ | .holdMessage _ | .announceMessage _ | .joinMessage _ | .admitMessage _ _
  | .denyMessage _ _ | .leaveMessage _ | .leftMessage _ | .drainMessage _ | .drainedMessage _ | .releaseMessage _
  | .dataMessage _ _ _ _ | .beaconMessage _ _ | .malformedMessage _ | .duplicateNumberEvent | .claimWindowExpiry _
  | .resendTimerExpiry _ | .drainTimerExpiry _ | .joinResponseTimerExpiry _ | .leaveResponseTimerExpiry _
  | .drainWaitTimerExpiry _ | .peerTimerExpiry _ | .presenceTimerExpiry | .listenTimerExpiry => none

end Sys2Proof
end

