-- ==== Sys2Proof/Machine/FMap.lean ====
section
/-! DEFINITION. A table keyed by number, held as the list of its rows in one canonical form: keys strictly rising. -/

namespace Sys2Proof.Machine

/-- A table keyed by number: the rows that are present. -/
abbrev FMap (α : Type) := List (Nat × α)

/-- The row with key k, if there is one. -/
def FMap.find? {α : Type} (m : FMap α) (k : Nat) : Option α :=
  match m with
  | [] => none
  | (j, v) :: rest => if j = k then some v else FMap.find? rest k

/-- The table with v as its row k, at its place in the order. -/
def FMap.insert {α : Type} (m : FMap α) (k : Nat) (v : α) : FMap α :=
  match m with
  | [] => [(k, v)]
  | (j, w) :: rest =>
    if k < j then (k, v) :: (j, w) :: rest
    else if k = j then (k, v) :: rest
    else (j, w) :: FMap.insert rest k v

/-- The table without a row k. -/
def FMap.erase {α : Type} (m : FMap α) (k : Nat) : FMap α := List.filter (fun row => row.1 ≠ k) m

/-- Every row's value changed by f, no row added or removed. -/
def FMap.mapValues {α : Type} (f : α → α) (m : FMap α) : FMap α := List.map (fun row => (row.1, f row.2)) m

/-- The keys of the rows, in their order. -/
def FMap.keys {α : Type} (m : FMap α) : List Nat := List.map Prod.fst m

/-- The canonical form: keys strictly rising, each below the bound. -/
def FMap.wf {α : Type} (bound : Nat) (m : FMap α) : Bool :=
  match m with
  | [] => true
  | (k, _) :: rest => decide (k < bound) && rest.all (fun row => decide (k < row.1)) && FMap.wf bound rest

/-- The lowest number below n that has no row. -/
def FMap.lowestFree {α : Type} (m : FMap α) (n : Nat) : Option Nat :=
  (List.range n).find? (fun k => (FMap.find? m k).isNone)

/-- The rows' keys and values in ascending order of a number each value has: insertion of one element. -/
def insertByKey {α : Type} (key : α → Nat) (x : α) : List α → List α
  | [] => [x]
  | y :: rest => if key x ≤ key y then x :: y :: rest else y :: insertByKey key x rest

/-- A list in ascending order of a key; elements of equal key keep their order. -/
def sortByKey {α : Type} (key : α → Nat) (l : List α) : List α := l.foldr (insertByKey key) []

end Sys2Proof.Machine
end

