-- ==== Sys2Proof/Machine/State.lean ====
section
/-! DEFINITION. The state of the block, one structure for each block of 00_scope.md section 3, as plain data; the
reasons a step can stop; the state after power-on reset (R165). A field that is present only in some states of its
record is an Option (00_scope.md section 5). Log 7, 8, 9, 17 say what is computed and what the model chose. -/

namespace Sys2Proof.Machine

/-! ### Channel Table (R1) -/

/-- The ownership view of a channel (R2). -/
inductive View where
  | free
  | heldRemote
  | claiming
  | announcing
  | heldLocal
  | releasing
  deriving DecidableEq, Repr, Inhabited

/-- The subscription state of a channel (R1). -/
inductive SubscriptionState where
  | none
  | joining
  | joined
  | leaving
  | draining
  deriving DecidableEq, Repr, Inhabited

/-- One Channel Table entry (R1). -/
structure ChannelEntry where
  view : View
  owner : Option Station
  slotIndex : Option Nat
  subscription : SubscriptionState
  contextIndex : Option Nat
  discard : Bool
  trap : Bool
  group : Fin 4
  queued : Nat
  deriving DecidableEq, Repr, Inhabited

/-- An entry after power-on reset (R21). An unlisted channel of the table holds this entry. -/
def ChannelEntry.initial : ChannelEntry where
  view := .free
  owner := none
  slotIndex := none
  subscription := .none
  contextIndex := none
  discard := false
  trap := false
  group := 0
  queued := 0

/-! ### Ownership Slot File (R23) -/

/-- The phase of an ownership slot (R23). -/
inductive Phase where
  | claiming
  | announcing
  | held
  | releasing
  deriving DecidableEq, Repr, Inhabited

/-- The messages a slot can owe (R23). -/
inductive SlotMessage where
  | claim
  | announce
  | drain
  | release
  deriving DecidableEq, Repr, Inhabited

/-- A message owed by a slot: its kind, its attempt count (R138), and whether an attempt of this owed instance is on
the wire (R142). A message that becomes owed begins a new instance, so a new record with the count 0 and the mark clear. -/
structure SlotOwed where
  kind : SlotMessage
  attempts : Nat
  onWire : Bool
  deriving DecidableEq, Repr, Inhabited

/-- An allocated ownership slot (R23), with the laggard count that R50 keeps beside the forced flag. -/
structure Slot where
  channel : Channel
  phase : Phase
  owed : Option SlotOwed
  window : Option Nat
  transmitSequence : Option Seq
  subscribers : StationSet
  awaited : StationSet
  drainTimer : Option Nat
  resendTimer : Option Nat
  forced : Bool
  laggards : Option Nat
  tag : Option Octet
  deriving DecidableEq, Repr, Inhabited

/-! ### Subscription Context File (R65) -/

/-- The state of a subscription context (R65). -/
inductive ContextState where
  | joining
  | joined
  | leaving
  | draining
  deriving DecidableEq, Repr, Inhabited

/-- The messages a context can owe (R65). -/
inductive ContextMessage where
  | join
  | leave
  | drained
  deriving DecidableEq, Repr, Inhabited

/-- A message owed by a context: its kind, its destination (R65), its attempt count (R138), and whether an attempt
of this owed instance is on the wire (R142). -/
structure ContextOwed where
  kind : ContextMessage
  destination : Station
  attempts : Nat
  onWire : Bool
  deriving DecidableEq, Repr, Inhabited

/-- An allocated subscription context (R65). -/
structure Context where
  channel : Channel
  state : ContextState
  owner : Option Station
  expected : Option Seq
  owed : Option ContextOwed
  attemptsUsed : Option Nat
  responseTimer : Option Nat
  drainWait : Option Nat
  drainedSent : Bool
  tag : Option Octet
  deriving DecidableEq, Repr, Inhabited

/-! ### Peer Table (R117) -/

/-- The entry of a PRESENT peer (R117); an ABSENT peer has no row. -/
structure Peer where
  epoch : Octet
  interval : Option Octet
  timer : Nat
  sinceHeard : Nat
  deriving DecidableEq, Repr, Inhabited

/-! ### Classifier (R95) -/

/-- A trap filter (R95). -/
structure Filter where
  enabled : Bool
  channelLow : Channel
  channelHigh : Channel
  offset : Octet
  value : Half
  mask : Half
  deriving DecidableEq, Repr, Inhabited

/-- A filter after power-on reset (R95). An unlisted filter number holds this filter. -/
def Filter.initial : Filter where
  enabled := false
  channelLow := 0
  channelHigh := 0
  offset := 0
  value := 0
  mask := 0

/-- The trap filters and the stray cells counter (R95, R92). -/
structure Classifier where
  filters : FMap Filter
  stray : Counter
  deriving DecidableEq, Repr, Inhabited

/-! ### Cell Store (R99 to R107) -/

/-- The route of a received cell (R103). -/
inductive Route where
  | delivered
  | channelTrap
  | filter (index : Fin 4)
  deriving DecidableEq, Repr, Inhabited

/-- A cell descriptor with the content of its buffer; its length field is the number of payload octets (R103). -/
structure Descriptor where
  channel : Channel
  source : Station
  sequence : Seq
  missing : Option Nat
  route : Route
  payload : List Octet
  deriving DecidableEq, Repr, Inhabited

/-- The five receive queues (R101). -/
inductive QueueName where
  | q0
  | q1
  | q2
  | q3
  | qm
  deriving DecidableEq, Repr, Inhabited

/-- A receive queue: its descriptors, oldest first, its overflow-notified flag and its drop counter (R101, R102). -/
structure ReceiveQueue where
  cells : List Descriptor
  overflowNotified : Bool
  drops : Counter
  deriving DecidableEq, Repr, Inhabited

/-- An entry of the transmit FIFO (R107). A DATA entry keeps its attempt count (R138), whether its attempt is on the
wire, and whether a conflict purge has left it there (R17, R110). -/
inductive FifoEntry where
  | data (channel : Channel) (sequence : Seq) (payload : List Octet) (attempts : Nat) (onWire : Bool) (purged : Bool)
  | marker (channel : Channel)
  deriving DecidableEq, Repr, Inhabited

/-- The Cell Store (R99, R101, R107, R109). -/
structure CellStore where
  free : Nat
  q0 : ReceiveQueue
  q1 : ReceiveQueue
  q2 : ReceiveQueue
  q3 : ReceiveQueue
  qm : ReceiveQueue
  fifo : List FifoEntry
  sendFailures : Counter
  deriving DecidableEq, Repr, Inhabited

/-! ### Span Interface (R137, R144, R149) -/

/-- What a waiting reply is (R144). -/
inductive ReplyKind where
  | hold
  | admission (next : Seq)
  | deny (reason : DenyReason)
  | left
  | cleanupLeave
  deriving DecidableEq, Repr, Inhabited

/-- A reply of the reply queue (R144): its attempt count, whether it is on the wire, and the overtaken mark (R146). -/
structure Reply where
  kind : ReplyKind
  channel : Channel
  destination : Station
  attempts : Nat
  onWire : Bool
  overtaken : Bool
  deriving DecidableEq, Repr, Inhabited

/-- Who owes the message of an attempt (R139): the reply queue's head, a slot, a context, the Station Controller's
BEACON, or the transmit FIFO's head. -/
inductive Sender where
  | reply
  | slot (index : Nat)
  | context (index : Nat)
  | beacon
  | fifo
  deriving DecidableEq, Repr, Inhabited

/-- An attempt in progress: who owes its message, and the message as it stood when it was picked (R137). -/
structure Attempt where
  sender : Sender
  message : Message
  deriving DecidableEq, Repr, Inhabited

/-- The Span Interface (R130, R137, R141, R144, R149); the duplicate-number events counter is R127's. -/
structure SpanInterface where
  replies : List Reply
  attempt : Option Attempt
  failures : Nat
  rate : Option Octet
  malformed : Counter
  replyOverflows : Counter
  duplicates : Counter
  deriving DecidableEq, Repr, Inhabited

/-! ### Station Controller (R150 to R165) -/

/-- The reason a station is MUTED (R162). -/
inductive MuteReason where
  | spanFailures
  | duplicateNumber
  deriving DecidableEq, Repr, Inhabited

/-- The station state (R150); the muted reason is present in MUTED only (R166). -/
inductive Mode where
  | detached
  | listening
  | active
  | withdrawing
  | muted (reason : MuteReason)
  deriving DecidableEq, Repr, Inhabited

/-- The BEACON the station owes (R125, R159), with its attempt count and whether its attempt is on the wire. -/
structure OwedBeacon where
  departing : Bool
  attempts : Nat
  onWire : Bool
  deriving DecidableEq, Repr, Inhabited

/-- The Station Controller. The startup record is present exactly while the loaded flag is set (R151). `inReset` is the
RSTn pin: while it is asserted the station is held in power-on reset (R189). -/
structure StationController where
  mode : Mode
  number : Station
  epoch : Octet
  startup : Option StartupRecord
  presence : Option Nat
  listen : Option Nat
  beacon : Option OwedBeacon
  inReset : Bool
  deriving DecidableEq, Repr, Inhabited

/-! ### Local Port (R167 to R178) -/

/-- The six kinds of long request (R175). -/
inductive RequestKind where
  | attach
  | withdraw
  | claim
  | release
  | join
  | leave
  deriving DecidableEq, Repr, Inhabited

/-- An entry of the Pending Request Table (R175). -/
structure PendingRequest where
  tag : Octet
  kind : RequestKind
  channel : Option Channel
  deriving DecidableEq, Repr, Inhabited

/-- The Local Port: the response fixed for the request last taken (R168, log 8), the Pending Request Table, the local
frame errors counter (R169), and the mark of an open transaction that the port does not take, because its CSn was
asserted while RSTn was (R189). -/
structure LocalPort where
  response : List Octet
  requests : List PendingRequest
  frameErrors : Counter
  unread : Bool
  deriving DecidableEq, Repr, Inhabited

/-- Where the local port stands in its transactions (R167): CSn deasserted, the request phase, or the response phase at
the octet of an index, 0 being the result octet. -/
inductive PortPoint where
  | deselected
  | request
  | response (index : Nat)
  deriving DecidableEq, Repr

/-- What SDO carries (R167): nothing, or an octet, most significant bit first. -/
inductive Sdo where
  | highImpedance
  | octet (value : Octet)
  deriving DecidableEq, Repr

/-! ### Event Queue (R180, R181) -/

/-- The results a completion carries (R182). -/
inductive CompletionResult where
  | ok
  | heldByOther
  | lostContest
  | sendFailed
  | aborted
  | abandoned
  | forced
  | ownershipLost
  | denied
  | noOwner
  | unconfirmed
  | ownerLost
  | duplicate
  | incomplete
  deriving DecidableEq, Repr, Inhabited

/-- The reasons of a PEER_LOST (R123). -/
inductive LostReason where
  | timeout
  | restarted
  | departed
  deriving DecidableEq, Repr, Inhabited

/-- The reasons of a CHANNEL_ORPHANED (R14, R81). -/
inductive OrphanReason where
  | ownerChanged
  | ownerDeparted
  deriving DecidableEq, Repr, Inhabited

/-- The reasons of a CHANNEL_RELEASED (R62, R63). -/
inductive ReleaseReason where
  | normal
  | undrained
  | implied
  deriving DecidableEq, Repr, Inhabited

/-- A notification with the fields its kind carries (R181), its lost-notification count aside. -/
inductive Notification where
  | peerArrived (station : Station) (epoch : Octet)
  | peerLost (station : Station) (reason : LostReason) (epoch : Octet)
  | channelOrphaned (channel : Channel) (reason : OrphanReason) (station : Station)
  | channelReleased (channel : Channel) (reason : ReleaseReason) (station : Station)
  | ownershipLost (channel : Channel) (station : Station)
  | queueOverflow (queue : QueueName) (channel : Channel) (station : Station) (drops : Counter)
  | muted (reason : MuteReason)
  | restarted
  deriving DecidableEq, Repr, Inhabited

/-- A completion record with its fields (R181). -/
structure Completion where
  tag : Octet
  kind : RequestKind
  result : CompletionResult
  channel : Option Channel
  station : Option Station
  count : Option Nat
  unannounced : Bool
  deriving DecidableEq, Repr, Inhabited

/-- An event record (R181): a completion, or a notification with its lost-notification count. -/
inductive EventRecord where
  | completion (record : Completion)
  | notification (content : Notification) (lost : Octet)
  deriving DecidableEq, Repr, Inhabited

/-- The Event Queue: its stored records, oldest first (R180), and the lost-notification count (R185). The places
held in reserve are the entries of the Pending Request Table (R183). -/
structure EventQueue where
  records : List EventRecord
  lost : Octet
  deriving DecidableEq, Repr, Inhabited

/-! ### The whole -/

/-- The state of the block, and the queue of commands that are waiting, first in, first out. -/
structure State where
  channels : FMap ChannelEntry
  slots : FMap Slot
  contexts : FMap Context
  peers : FMap Peer
  classifier : Classifier
  store : CellStore
  span : SpanInterface
  station : StationController
  port : LocalPort
  events : EventQueue
  pending : List Instr
  deriving DecidableEq, Repr, Inhabited

/-- The reasons a step faults: there is none. The spec names no condition in which the station stops: a refused request
answers a result code (R173), a malformed message is counted (R134), a failed attempt is counted (R138). -/
inductive Fault where
  deriving DecidableEq, Repr

/-- The reasons a step is refused. -/
inductive Refusal where
  /-- Raised by exec for a command without a meaning; no command is without one. Safe: the model stops. -/
  | notModelled (mnemonic : String)
  deriving DecidableEq, Repr

/-- A receive queue after power-on reset: empty, flag clear, drop counter 0 (R102, R116). -/
def ReceiveQueue.initial : ReceiveQueue := ⟨[], false, 0⟩

/-- The state after power-on reset with the given value on the SID straps, RSTn deasserted (R153, R165). -/
def State.afterReset (straps : Station) : State where
  channels := []
  slots := []
  contexts := []
  peers := []
  classifier := { filters := [], stray := 0 }
  store :=
    { free := Config.bufferCount, q0 := .initial, q1 := .initial, q2 := .initial, q3 := .initial, qm := .initial,
      fifo := [], sendFailures := 0 }
  span :=
    { replies := [], attempt := none, failures := 0, rate := none, malformed := 0, replyOverflows := 0, duplicates := 0 }
  station :=
    { mode := .detached, number := straps, epoch := 0, startup := none, presence := none, listen := none, beacon := none,
      inReset := false }
  port := { response := [], requests := [], frameErrors := 0, unread := false }
  events := { records := [], lost := 0 }
  pending := []

/-- The state after power-on reset, R165. DESIGN CHOICE (log 6): the straps hold 1; the release of RSTn carries any other value. -/
def State.reset : State := State.afterReset 1

end Sys2Proof.Machine
end

