-- ==== Sys2Proof/Machine/Operands.lean ====
section
/-! DEFINITION. How the operands of commands are read: request parameters (R171), destinations (R133), the kinds that
indicate ownership (R10), sets of stations, names and numbers of queues. -/

namespace Sys2Proof.Machine

/-! ### Request parameters (R171) -/

/-- A channel number parameter names a channel when it is at most 1023 (R171). -/
def isChannel (c : Half) : Bool := c.toNat ≤ 1023

/-- The channel a parameter of at most 1023 names. -/
def toChannel (c : Half) : Channel := BitVec.ofNat 10 c.toNat

/-- The queue a queue number names: 0 to 3 for Q0 to Q3, 4 for QM (R104). -/
def queueOfNumber (n : Octet) : Option QueueName :=
  match n.toNat with
  | 0 => some .q0
  | 1 => some .q1
  | 2 => some .q2
  | 3 => some .q3
  | 4 => some .qm
  | _ => none

/-- The number TAKE uses for a queue (R104, R182). -/
def QueueName.number : QueueName → Nat
  | .q0 => 0
  | .q1 => 1
  | .q2 => 2
  | .q3 => 3
  | .qm => 4

/-- The delivery queue of a delivery group (R91). -/
def queueOfGroup (g : Fin 4) : QueueName :=
  match g with
  | 0 => .q0
  | 1 => .q1
  | 2 => .q2
  | 3 => .q3

/-- The delivery group in bits 3 to 0 of SET_ACTION's octet, as carried (R171). -/
def actionGroup (a : Octet) : Nat := (a.extractLsb' 0 4).toNat

/-- The discard flag in bit 7 of SET_ACTION's octet (R171). -/
def actionDiscard (a : Octet) : Bool := a.getLsbD 7

/-- The trap flag in bit 6 of SET_ACTION's octet (R171). -/
def actionTrap (a : Octet) : Bool := a.getLsbD 6

/-! ### Messages -/

/-- The owner-indicating kinds: HOLD, ANNOUNCE, ADMIT, DRAIN, DATA, and DENY with reason RELEASING (R10). -/
def ownerIndicating : Body → Bool
  | .hold | .announce | .admission _ | .drain | .data _ _ | .deny .releasing => true
  | .claim | .join | .deny .notOwner | .leave | .left | .drained | .release | .beacon _ => false

/-- The departing flag, bit 0 of the flags, read in a BEACON and in no other kind (R132). -/
def departingBeacon (h : Header) : Body → Bool
  | .beacon _ => h.flags.getLsbD 0
  | .claim | .hold | .announce | .join | .admission _ | .deny _ | .leave | .left | .drain | .drained | .release
  | .data _ _ => false

/-- The interval a BEACON announces, 1 to 255; none for an interval octet of 0 and for every other kind (R119, R120). -/
def announcedInterval : Body → Option Octet
  | .beacon i => if i = 0 then none else some i
  | .claim | .hold | .announce | .join | .admission _ | .deny _ | .leave | .left | .drain | .drained | .release
  | .data _ _ => none

/-- The message is addressed to this station (R133). -/
def State.addressed (s : State) (h : Header) : Bool := h.destination = s.station.number

/-- The message is addressed to this station or to all stations (R70, R54). -/
def State.addressedOrAll (s : State) (h : Header) : Bool := s.addressed h || h.destination = 0

/-! ### Sets of stations (R23) -/

/-- The station is a member. -/
def hasStation (set : StationSet) (x : Station) : Bool := set.getLsbD x.toNat

/-- The set with one more member. -/
def addStation (set : StationSet) (x : Station) : StationSet := set ||| BitVec.twoPow 64 x.toNat

/-- The set without one member. -/
def removeStation (set : StationSet) (x : Station) : StationSet := set &&& ~~~(BitVec.twoPow 64 x.toNat)

/-- The number of members. -/
def stationCount (set : StationSet) : Nat := (List.range 64).countP (fun n => set.getLsbD n)

/-! ### Receive queues by name -/

/-- The queue of a name. -/
def CellStore.queue (c : CellStore) : QueueName → ReceiveQueue
  | .q0 => c.q0
  | .q1 => c.q1
  | .q2 => c.q2
  | .q3 => c.q3
  | .qm => c.qm

/-- The store with another queue under a name. -/
def CellStore.setQueue (c : CellStore) (q : QueueName) (r : ReceiveQueue) : CellStore :=
  match q with
  | .q0 => { c with q0 := r }
  | .q1 => { c with q1 := r }
  | .q2 => { c with q2 := r }
  | .q3 => { c with q3 := r }
  | .qm => { c with qm := r }

/-- The five queues in the order Q0, Q1, Q2, Q3, QM. -/
def allQueues : List QueueName := [.q0, .q1, .q2, .q3, .qm]

/-- A queue's limit in the startup record (R101, R151). -/
def queueLimit (r : StartupRecord) : QueueName → Nat
  | .q0 => r.limitQ0.toNat
  | .q1 => r.limitQ1.toNat
  | .q2 => r.limitQ2.toNat
  | .q3 => r.limitQ3.toNat
  | .qm => r.limitQM.toNat

end Sys2Proof.Machine
end

