-- ==== Sys2Proof/Machine/Flags.lean ====
section
/-! DEFINITION. Counters and the conditions that follow the state: receiver, transmitter, SPAN_DE, SPAN_TX, SDO, ATTN, loaded flag,
stage of a release, durations of the timers, ranges of the startup record. -/

namespace Sys2Proof.Machine

/-! ### Counters -/

/-- A 16-bit counter increased by one, saturating at 65535 (R166). -/
def countUp (c : Counter) : Counter := if c = 65535 then 65535 else c + 1

/-- The lost-notification count increased by one, saturating at 255 (R184). -/
def countLost (c : Octet) : Octet := if c = 255 then 255 else c + 1

/-- The consecutive-failure count increased by one; its range is 0 to 32 (R141). -/
def countFailure (n : Nat) : Nat := min Config.failureLimit (n + 1)

/-- The epoch of the next attach: one more, from 255 to 1 by wrapping (R155). -/
def nextEpoch (e : Octet) : Octet := if e = 255 then 1 else e + 1

/-! ### Lines and modes -/

/-- The receiver is on in every state but DETACHED (R150). -/
def State.receiverOn (s : State) : Bool := s.station.mode ≠ .detached

/-- The transmitter offers messages, and the reply queue takes replies, in LISTENING, ACTIVE and WITHDRAWING (R130, R144). -/
def State.transmitterOn (s : State) : Bool :=
  match s.station.mode with
  | .listening | .active | .withdrawing => true
  | .detached | .muted _ => false

/-- SPAN_DE is asserted exactly while an attempt is in progress (R130, R137). -/
def State.spanDe (s : State) : Bool := s.span.attempt.isSome

/-- The octets of the attempt in progress, as SPAN_TX carries them (R132, R137). -/
def State.spanTx (s : State) : List Octet :=
  match s.span.attempt with
  | some a => a.message.octets
  | none => []

/-- SDO (R167, R172, R189): high impedance while RSTn is asserted and while CSn is deasserted; 0 in the request phase; in
the response phase the response's octets, and 0 after their end and in a transaction the port does not take. -/
def State.sdo (s : State) (point : PortPoint) : Sdo :=
  if s.station.inReset then .highImpedance
  else
    match point with
    | .deselected => .highImpedance
    | .request => .octet 0
    | .response n => .octet (if s.port.unread then 0 else s.port.response.getD n 0)

/-- The loaded flag (R151). -/
def State.loaded (s : State) : Bool := s.station.startup.isSome

/-- The queue is selected by the attention mask (R151, R171, R179). -/
def selected (r : StartupRecord) (q : QueueName) : Bool := r.attentionMask.getLsbD q.number

/-- ATTN: an event record is stored, or a selected receive queue is not empty; without a loaded record no queue is
selected (R179). -/
def State.attn (s : State) : Bool :=
  !s.events.records.isEmpty ||
    match s.station.startup with
    | some r => allQueues.any (fun q => selected r q && !(s.store.queue q).cells.isEmpty)
    | none => false

/-! ### The startup record -/

/-- The startup record in force; while none is loaded, a free value no rule reads (R151, log 7). -/
def State.record (s : State) : StartupRecord := s.station.startup.getD Config.unloadedRecord

/-- The lowest index of a field outside its range, if there is one (R151, R152). -/
def badField (r : StartupRecord) : Option Octet :=
  if r.rateClass.toNat > 3 then some 1
  else if r.presenceInterval.toNat < 1 then some 2
  else if r.peerMultiple.toNat < 3 || r.peerMultiple.toNat > 15 then some 3
  else if r.listenMultiple.toNat < 2 || r.listenMultiple.toNat > 15 then some 4
  else if r.claimWindow.toNat < 1 then some 5
  else if r.responseTimeout.toNat < 1 then some 6
  else if r.drainTimeout.toNat < 1 then some 7
  else if r.attemptLimit.toNat < 1 || r.attemptLimit.toNat > 15 then some 8
  else if r.limitQ0.toNat > 256 then some 9
  else if r.limitQ1.toNat > 256 then some 10
  else if r.limitQ2.toNat > 256 then some 11
  else if r.limitQ3.toNat > 256 then some 12
  else if r.limitQM.toNat > 256 then some 13
  else if r.transmitLimit.toNat < 1 || r.transmitLimit.toNat > 32 then some 14
  else if r.attentionMask.toNat > 31 then some 15
  else none

/-- The claim window in ms (R28). -/
def State.claimWindow (s : State) : Nat := s.record.claimWindow.toNat

/-- The response timeout in ms (R45, R69, R76). -/
def State.responseTimeout (s : State) : Nat := s.record.responseTimeout.toNat

/-- The drain timeout in ms (R45). -/
def State.drainTimeout (s : State) : Nat := 10 * s.record.drainTimeout.toNat

/-- The drain-wait time in ms, twice the drain timeout (R57). -/
def State.drainWaitTime (s : State) : Nat := 2 * s.drainTimeout

/-- The presence interval in ms (R125). -/
def State.presenceTime (s : State) : Nat := 10 * s.record.presenceInterval.toNat

/-- The listen period in ms (R155). -/
def State.listenTime (s : State) : Nat := s.record.listenMultiple.toNat * s.presenceTime

/-- The peer timeout in ms in force for an announced interval, or for the own presence interval while there is none (R117). -/
def State.peerTimeout (s : State) (interval : Option Octet) : Nat :=
  10 * (interval.getD s.record.presenceInterval).toNat * s.record.peerMultiple.toNat

/-- The attempt limit of the startup record (R140). -/
def State.attemptLimit (s : State) : Nat := s.record.attemptLimit.toNat

/-! ### The transmit FIFO and the queues -/

/-- The entry is a DATA entry (R107). -/
def FifoEntry.isData : FifoEntry → Bool
  | .data .. => true
  | .marker _ => false

/-- The entry is a DATA entry of the channel. -/
def FifoEntry.isDataOf (c : Channel) : FifoEntry → Bool
  | .data d .. => d = c
  | .marker _ => false

/-- The entry is the drain marker of the channel (R107). -/
def FifoEntry.isMarkerOf (c : Channel) : FifoEntry → Bool
  | .data .. => false
  | .marker d => d = c

/-- The number of DATA entries of the FIFO (R107). -/
def dataEntries (fifo : List FifoEntry) : Nat := fifo.countP FifoEntry.isData

/-- The sequence number of the channel's oldest DATA entry in the FIFO (R71, R113). -/
def oldestSequence (c : Channel) : List FifoEntry → Option Seq
  | [] => none
  | .data d q .. :: rest => if d = c then some q else oldestSequence c rest
  | .marker _ :: rest => oldestSequence c rest

/-- A RELEASING slot is in marker wait while its drain marker is in the transmit FIFO (R43). -/
def State.markerWaits (s : State) (c : Channel) : Bool := s.store.fifo.any (FifoEntry.isMarkerOf c)

/-- Every receive queue is empty. -/
def CellStore.queuesEmpty (c : CellStore) : Bool := allQueues.all (fun q => (c.queue q).cells.isEmpty)

end Sys2Proof.Machine
end

