-- ==== Sys2Proof/Machine/Ops.lean ====
section
/-! DEFINITION. The named operations the commands share, block by block: table entries, event records, slots,
contexts, the transmit FIFO and its markers, replies, departures, conflict, entering DETACHED, MUTED entry. -/

namespace Sys2Proof.Machine

/-! ### The Channel Table -/

/-- A Channel Table row written, in the canonical form: a power-on entry is not listed. -/
def putEntry (m : FMap ChannelEntry) (k : Nat) (e : ChannelEntry) : FMap ChannelEntry :=
  if e = ChannelEntry.initial then FMap.erase m k else FMap.insert m k e

/-- Every entry of the table changed by f, which keeps the power-on entry. -/
def mapEntries (f : ChannelEntry → ChannelEntry) (m : FMap ChannelEntry) : FMap ChannelEntry :=
  m.foldr (fun row acc => putEntry acc row.1 (f row.2)) []

/-- The entry of a channel (R1). -/
def State.entry (s : State) (c : Channel) : ChannelEntry := (FMap.find? s.channels c.toNat).getD ChannelEntry.initial

/-- The entry of a channel written. -/
def State.setEntry (s : State) (c : Channel) (e : ChannelEntry) : State :=
  { s with channels := putEntry s.channels c.toNat e }

/-- Ownership part FREE: no owner, no slot (R1, R3). -/
def ChannelEntry.toFree (e : ChannelEntry) : ChannelEntry := { e with view := .free, owner := none, slotIndex := none }

/-- Ownership part HELD_REMOTE with an owner (R3, R11). -/
def ChannelEntry.toRemote (x : Station) (e : ChannelEntry) : ChannelEntry :=
  { e with view := .heldRemote, owner := some x, slotIndex := none }

/-- Ownership part of a local view: the own number and the slot's index (R2, R3). -/
def ChannelEntry.toLocal (view : View) (own : Station) (i : Nat) (e : ChannelEntry) : ChannelEntry :=
  { e with view := view, owner := some own, slotIndex := some i }

/-- Subscription part of a channel with a context (R4). -/
def ChannelEntry.subscribed (st : SubscriptionState) (i : Nat) (e : ChannelEntry) : ChannelEntry :=
  { e with subscription := st, contextIndex := some i }

/-- Subscription part NONE (R4). -/
def ChannelEntry.unsubscribed (e : ChannelEntry) : ChannelEntry := { e with subscription := .none, contextIndex := none }

/-- The view is one of the four local views (R2). -/
def View.isLocal : View → Bool
  | .claiming | .announcing | .heldLocal | .releasing => true
  | .free | .heldRemote => false

/-! ### The Event Queue -/

/-- Stored event records plus Pending Request Table entries (R180). -/
def State.eventSum (s : State) : Nat := s.events.records.length + s.port.requests.length

/-- A notification written: stored with the lost-notification count, which returns to 0, or dropped and counted (R184). -/
def State.notify (s : State) (n : Notification) : State :=
  if s.eventSum < Config.eventPlaces then
    { s with events := { records := s.events.records ++ [.notification n s.events.lost], lost := 0 } }
  else { s with events := { s.events with lost := countLost s.events.lost } }

/-- The withdrawal's three conditions: no slot, no context, no pending request but the WITHDRAW (R159). -/
def State.nothingRemains (s : State) : Bool :=
  s.slots.isEmpty && s.contexts.isEmpty && s.port.requests.all (fun r => r.kind = .withdraw)

/-- The departing BEACON is owed. -/
def State.departingOwed (s : State) : Bool :=
  match s.station.beacon with
  | some b => b.departing
  | none => false

/-- The test of R159: in WITHDRAWING, the first step that finds nothing remaining makes the departing BEACON owed, in
place of any ordinary BEACON. -/
def State.testWithdrawal (s : State) : State :=
  if s.station.mode = .withdrawing ∧ s.nothingRemains = true ∧ s.departingOwed = false then
    { s with station := { s.station with beacon := some ⟨true, 0, false⟩ } }
  else s

/-- What a completion says beside its request (R181, R183). -/
structure Ending where
  result : CompletionResult
  station : Option Station := none
  count : Option Nat := none
  unannounced : Bool := false
  deriving DecidableEq, Repr

/-- The completion record of a pending request (R181, R183). -/
def Ending.completes (e : Ending) (r : PendingRequest) : EventRecord :=
  .completion ⟨r.tag, r.kind, e.result, r.channel, e.station, e.count, e.unannounced⟩

/-- The pending request with a tag (R176). -/
def State.requestWith (s : State) (tag : Octet) : Option PendingRequest := s.port.requests.find? (fun r => r.tag = tag)

/-- The completion of the pending request with a tag: its entry is removed and its record stored (R177, R183), and
the withdrawal's test is made (R159). -/
def State.complete (s : State) (tag : Octet) (e : Ending) : State :=
  match s.requestWith tag with
  | some r =>
    State.testWithdrawal
      { s with
        port := { s.port with requests := s.port.requests.eraseP (fun r => r.tag = tag) },
        events := { s.events with records := s.events.records ++ [e.completes r] } }
  | none => s

/-- The completion of the request whose tag a slot or a context holds; nothing when it holds none (R53, R76). -/
def State.completeHeld (s : State) (tag : Option Octet) (e : Ending) : State :=
  match tag with
  | some t => s.complete t e
  | none => s

/-- The pending request of a station kind (R175). -/
def State.stationRequest (s : State) (k : RequestKind) : Option Octet :=
  (s.port.requests.find? (fun r => r.kind = k)).map (fun r => r.tag)

/-- A long request entered in the Pending Request Table (R177). -/
def State.enterRequest (s : State) (tag : Octet) (kind : RequestKind) (channel : Option Channel) : State :=
  { s with port := { s.port with requests := s.port.requests ++ [⟨tag, kind, channel⟩] } }

/-! ### Slots -/

/-- A message that becomes owed by a slot: a new owed instance (R142). -/
def SlotOwed.fresh (kind : SlotMessage) : SlotOwed := ⟨kind, 0, false⟩

/-- A slot as allocation makes it (R24). -/
def Slot.allocated (c : Channel) (tag : Octet) : Slot where
  channel := c
  phase := .claiming
  owed := some (.fresh .claim)
  window := none
  transmitSequence := none
  subscribers := 0
  awaited := 0
  drainTimer := none
  resendTimer := none
  forced := false
  laggards := none
  tag := some tag

/-- The slot found through a channel's entry, with its index (01_the_channel_table.md, R2). -/
def State.slotOf (s : State) (c : Channel) : Option (Nat × Slot) :=
  (s.entry c).slotIndex.bind fun i => (FMap.find? s.slots i).map fun sl => (i, sl)

/-- A slot written at an index. -/
def State.putSlot (s : State) (i : Nat) (sl : Slot) : State := { s with slots := FMap.insert s.slots i sl }

/-- A slot freed; in the same step its channel's entry takes the view FREE, or HELD_REMOTE with a new owner (R3, R24),
and the withdrawal's test is made (R53, R159). -/
def State.freeSlot (s : State) (i : Nat) (c : Channel) (newOwner : Option Station) : State :=
  let e :=
    match newOwner with
    | some x => (s.entry c).toRemote x
    | none => (s.entry c).toFree
  State.testWithdrawal { s.setEntry c e with slots := FMap.erase s.slots i }

/-- The drain closes: the timers stop and the slot owes RELEASE (R49). -/
def Slot.closeDrain (sl : Slot) : Slot :=
  { sl with drainTimer := none, resendTimer := none, owed := some (.fresh .release) }

/-- A station leaves the awaited set; when that empties the set, the drain closes (R48, R49, R54, R55). -/
def Slot.confirm (x : Station) (sl : Slot) : Slot :=
  if hasStation sl.awaited x then
    let sl' := { sl with awaited := removeStation sl.awaited x }
    if sl'.awaited = 0 then sl'.closeDrain else sl'
  else sl

/-- A station leaves the subscriber set and the awaited set (R54, R55, R77). -/
def Slot.forget (x : Station) (sl : Slot) : Slot :=
  Slot.confirm x { sl with subscribers := removeStation sl.subscribers x }

/-! ### The transmit FIFO and its markers -/

/-- The drain snapshot of a slot: the awaited set becomes a copy of the subscriber set, and the slot owes DRAIN with its
timers running, or RELEASE (R45). -/
def State.snapshot (s : State) (sl : Slot) : Slot :=
  if sl.subscribers = 0 then
    { sl with awaited := 0, drainTimer := none, resendTimer := none, owed := some (.fresh .release) }
  else
    { sl with awaited := sl.subscribers, drainTimer := some s.drainTimeout, resendTimer := some s.responseTimeout,
              owed := some (.fresh .drain) }

/-- The slot of a consumed marker's channel takes its drain snapshot (R45). -/
def State.takeSnapshot (s : State) (c : Channel) : State :=
  match s.slotOf c with
  | some (i, sl) => s.putSlot i (s.snapshot sl)
  | none => s

/-- The transmit FIFO replaced. -/
def State.setFifo (s : State) (fifo : List FifoEntry) : State := { s with store := { s.store with fifo := fifo } }

/-- The markers at the head of a FIFO, oldest first. -/
def headMarkers : List FifoEntry → List Channel
  | .marker c :: rest => c :: headMarkers rest
  | _ => []

/-- A FIFO without the markers at its head. -/
def withoutHeadMarkers : List FifoEntry → List FifoEntry
  | .marker _ :: rest => withoutHeadMarkers rest
  | fifo => fifo

/-- The drain markers at the head are consumed, one after another, and each slot takes its snapshot (R45). -/
def State.consumeMarkers (s : State) : State :=
  (headMarkers s.store.fifo).foldl State.takeSnapshot (s.setFifo (withoutHeadMarkers s.store.fifo))

/-- A HELD slot is released: phase and view RELEASING, the request's tag or none, and a drain marker at the FIFO's tail,
consumed at once when it is the head (R43, R45). -/
def State.startRelease (s : State) (i : Nat) (sl : Slot) (tag : Option Octet) : State :=
  let s₁ := (s.putSlot i { sl with phase := .releasing, tag := tag }).setEntry sl.channel
    ((s.entry sl.channel).toLocal .releasing s.station.number i)
  (s₁.setFifo (s₁.store.fifo ++ [.marker sl.channel])).consumeMarkers

/-- Buffers returned to the pool (R99). -/
def State.freeBuffers (s : State) (n : Nat) : State := { s with store := { s.store with free := s.store.free + n } }

/-- The head DATA entry leaves the FIFO, its buffer returns to the pool, and markers behind it are consumed (R109, R110). -/
def State.dropHeadData (s : State) : State :=
  match s.store.fifo with
  | .data .. :: rest => ((s.setFifo rest).freeBuffers 1).consumeMarkers
  | _ => s

/-- What a conflict purge makes of one FIFO entry: a DATA entry of the channel leaves unless it is on the wire, where it
stays marked; the channel's marker leaves (R17). -/
def purgeEntry (c : Channel) (e : FifoEntry) : Option FifoEntry :=
  match e with
  | .data d q p a w m => if d = c then if w then some (.data d q p a w true) else none else some (.data d q p a w m)
  | .marker d => if d = c then none else some (.marker d)

/-- The transmit FIFO purged of a lost channel, the buffers freed (R17). -/
def State.purgeFifo (s : State) (c : Channel) : State :=
  let fifo := s.store.fifo.filterMap (purgeEntry c)
  (s.setFifo fifo).freeBuffers (dataEntries s.store.fifo - dataEntries fifo)

/-! ### Replies -/

/-- Two replies of the same kind, and for DENY the same reason; an ADMIT's next sequence plays no part (R144). -/
def ReplyKind.alike : ReplyKind → ReplyKind → Bool
  | .hold, .hold => true
  | .admission _, .admission _ => true
  | .deny r, .deny r' => r = r'
  | .left, .left => true
  | .cleanupLeave, .cleanupLeave => true
  | _, _ => false

/-- A reply added: not in a state that takes none, not when an alike reply waits, dropped and counted when the queue is
full (R144). -/
def State.addReply (s : State) (kind : ReplyKind) (c : Channel) (x : Station) : State :=
  if s.transmitterOn = false then s
  else if s.span.replies.any (fun r => !r.overtaken && r.kind.alike kind && r.channel = c && r.destination = x) then s
  else if s.span.replies.length < Config.replyPlaces then
    { s with span := { s.span with replies := s.span.replies ++ [⟨kind, c, x, 0, false, false⟩] } }
  else { s with span := { s.span with replyOverflows := countUp s.span.replyOverflows } }

/-- The replies that show a holding: HOLD, ADMIT, and DENY with reason RELEASING (R17, R51). -/
def ReplyKind.showsHolding : ReplyKind → Bool
  | .hold | .admission _ | .deny .releasing => true
  | .deny .notOwner | .left | .cleanupLeave => false

/-- What a purge makes of one reply: removed, or marked overtaken when it is on the wire (R146). -/
def purgeReply (c : Channel) (r : Reply) : Option Reply :=
  if r.channel = c ∧ r.kind.showsHolding = true then
    if r.onWire then some { r with overtaken := true } else none
  else some r

/-- The reply queue purged of a channel's replies that show a holding (R17, R51, R146). -/
def State.purgeReplies (s : State) (c : Channel) : State :=
  { s with span := { s.span with replies := s.span.replies.filterMap (purgeReply c) } }

/-! ### Contexts -/

/-- A message that becomes owed by a context: a new owed instance (R142). -/
def ContextOwed.fresh (kind : ContextMessage) (destination : Station) : ContextOwed := ⟨kind, destination, 0, false⟩

/-- The destination of a JOIN attempt: the owner of a HELD_REMOTE view, or all stations (R15). -/
def ChannelEntry.joinDestination (e : ChannelEntry) : Station := if e.view = .heldRemote then e.owner.getD 0 else 0

/-- A context as allocation makes it (R68). -/
def Context.allocated (c : Channel) (destination : Station) (tag : Octet) : Context where
  channel := c
  state := .joining
  owner := none
  expected := none
  owed := some (.fresh .join destination)
  attemptsUsed := some 0
  responseTimer := none
  drainWait := none
  drainedSent := false
  tag := some tag

/-- The context found through a channel's entry, with its index (01_the_channel_table.md, R4). -/
def State.contextOf (s : State) (c : Channel) : Option (Nat × Context) :=
  (s.entry c).contextIndex.bind fun i => (FMap.find? s.contexts i).map fun x => (i, x)

/-- A context written at an index. -/
def State.putContext (s : State) (i : Nat) (x : Context) : State := { s with contexts := FMap.insert s.contexts i x }

/-- A context freed; in the same step its channel's subscription state becomes NONE (R66), and the withdrawal's test is
made (R82, R159). -/
def State.freeContext (s : State) (i : Nat) (c : Channel) : State :=
  State.testWithdrawal { s.setEntry c (s.entry c).unsubscribed with contexts := FMap.erase s.contexts i }

/-- The leave of a context starts: LEAVING, LEAVE owed to the owner in place of any DRAINED, no timer (R64, R75, R82). -/
def Context.leaving (x : Context) (tag : Option Octet) : Context :=
  { x with state := .leaving, owed := some (.fresh .leave (x.owner.getD 0)), attemptsUsed := some 0,
           responseTimer := none, drainWait := none, tag := tag }

/-- A context becomes LEAVING, and its channel's entry shows it (R75, R82). -/
def State.startLeave (s : State) (i : Nat) (x : Context) (tag : Option Octet) : State :=
  (s.putContext i (x.leaving tag)).setEntry x.channel ((s.entry x.channel).subscribed .leaving i)

/-- DRAINED becomes owed to the owner, unless it is owed already (R58, R59). -/
def Context.oweDrained (x : Context) : Context :=
  if x.owed.any (fun o => o.kind = .drained) then x else { x with owed := some (.fresh .drained (x.owner.getD 0)) }

/-- A subscription ends because the owner departed or changed: the context is freed, CHANNEL_ORPHANED is judged, then
a pending LEAVE completes OWNER_LOST (R14, R81). -/
def State.orphan (s : State) (i : Nat) (x : Context) (reason : OrphanReason) (station : Station) : State :=
  ((s.freeContext i x.channel).notify (.channelOrphaned x.channel reason station)).completeHeld x.tag
    { result := .ownerLost, station := some station }

/-! ### Buffers and receive queues -/

/-- One descriptor has left a receive queue: its buffer returns to the pool and its channel's queued count decreases
(R104, R106); a count that reaches 0 while the subscription state is DRAINING makes DRAINED owed (R8, R59). -/
def State.dequeued (s : State) (d : Descriptor) : State :=
  let e := { s.entry d.channel with queued := (s.entry d.channel).queued - 1 }
  let s₁ := (s.freeBuffers 1).setEntry d.channel e
  if e.queued = 0 ∧ e.subscription = .draining then
    match s₁.contextOf d.channel with
    | some (i, x) => s₁.putContext i x.oweDrained
    | none => s₁
  else s₁

/-- A receive queue replaced. -/
def State.setQueue (s : State) (q : QueueName) (r : ReceiveQueue) : State := { s with store := s.store.setQueue q r }

/-- A cell offered to a receive queue: enqueued when a buffer is free and the queue is below its limit (R93), otherwise
dropped, counted, and notified once per run (R94). -/
def State.offer (s : State) (q : QueueName) (d : Descriptor) : State :=
  let r := s.store.queue q
  if 0 < s.store.free ∧ r.cells.length < queueLimit s.record q then
    let s₁ := s.setQueue q { r with cells := r.cells ++ [d] }
    let s₂ := { s₁ with store := { s₁.store with free := s₁.store.free - 1 } }
    s₂.setEntry d.channel { s₂.entry d.channel with queued := (s₂.entry d.channel).queued + 1 }
  else
    let s₁ := s.setQueue q { r with drops := countUp r.drops, overflowNotified := true }
    if r.overflowNotified then s₁ else s₁.notify (.queueOverflow q d.channel d.source (countUp r.drops))

/-! ### Peers -/

/-- The channels with a context, in ascending channel number, each with its context's index. -/
def State.subscribedChannels (s : State) : List (Nat × Context) := sortByKey (fun row => row.2.channel.toNat) s.contexts

/-- The departure of peer y as one context takes it: orphaned when y owns it; a JOIN addressed to y and not on the wire
is readdressed to destination 0 (R81). -/
def State.departContext (y : Station) (s : State) (row : Nat × Context) : State :=
  if row.2.state = .joining then
    match row.2.owed with
    | some o =>
      if o.destination = y ∧ o.onWire = false then
        s.putContext row.1 { row.2 with owed := some { o with destination := 0 } }
      else s
    | none => s
  else if row.2.owner = some y then s.orphan row.1 row.2 .ownerDeparted y
  else s

/-- What the departure of y makes of an entry: a HELD_REMOTE view with owner y becomes FREE (R19). -/
def ChannelEntry.departed (y : Station) (e : ChannelEntry) : ChannelEntry :=
  if e.view = .heldRemote ∧ e.owner = some y then e.toFree else e

/-- The departure of peer y (R123): its entry ABSENT, PEER_LOST, the views, the slots' sets, and the contexts in ascending
channel number. -/
def State.depart (s : State) (y : Station) (reason : LostReason) (epoch : Octet) : State :=
  let s₁ := ({ s with peers := FMap.erase s.peers y.toNat } : State).notify (.peerLost y reason epoch)
  let s₂ := { s₁ with channels := mapEntries (ChannelEntry.departed y) s₁.channels,
                      slots := FMap.mapValues (Slot.forget y) s₁.slots }
  s₂.subscribedChannels.foldl (State.departContext y) s₂

/-! ### Double ownership and yielding -/

/-- A CLAIMING slot yields to an owner-indicating message from x (R30). -/
def State.yieldTo (s : State) (i : Nat) (sl : Slot) (x : Station) : State :=
  (s.freeSlot i sl.channel (some x)).completeHeld sl.tag { result := .heldByOther, station := some x }

/-- The station loses a channel to a lower-numbered owner x (R16, R17): slot freed, FIFO and replies purged, entry
HELD_REMOTE; a claim completes LOST_CONTEST; a holding stores OWNERSHIP_LOST, then completes a pending RELEASE. -/
def State.loseChannel (s : State) (i : Nat) (sl : Slot) (x : Station) : State :=
  let s₁ := (((s.freeSlot i sl.channel (some x)).purgeFifo sl.channel).purgeReplies sl.channel).consumeMarkers
  if sl.phase = .announcing then s₁.completeHeld sl.tag { result := .lostContest, station := some x }
  else (s₁.notify (.ownershipLost sl.channel x)).completeHeld sl.tag { result := .ownershipLost, station := some x }

/-- The station keeps a channel against a higher-numbered owner: a HELD or RELEASING slot that owes nothing comes to owe
ANNOUNCE (R18). -/
def Slot.defend (sl : Slot) : Slot :=
  if sl.phase ≠ .announcing ∧ sl.owed = none then { sl with owed := some (.fresh .announce) } else sl

/-- The end of a release, at the echo or the abandonment of its RELEASE (R51, R52, R53). -/
def State.endRelease (s : State) (i : Nat) (sl : Slot) (unannounced : Bool) : State :=
  ((s.freeSlot i sl.channel none).purgeReplies sl.channel).completeHeld sl.tag
    (if sl.forced then { result := .forced, count := sl.laggards, unannounced := unannounced }
     else { result := .ok, unannounced := unannounced })

/-! ### The station as a whole -/

/-- A HELD_REMOTE view becomes FREE (R20). -/
def ChannelEntry.forgetRemote (e : ChannelEntry) : ChannelEntry := if e.view = .heldRemote then e.toFree else e

/-- Entering DETACHED (R161). -/
def State.enterDetached (s : State) : State :=
  { s with
    channels := mapEntries ChannelEntry.forgetRemote s.channels,
    peers := [],
    span := { s.span with replies := [], attempt := none, rate := none },
    station := { s.station with mode := .detached, presence := none, listen := none, beacon := none } }

/-- What MUTED entry makes of an entry: local views FREE, no subscription, HELD_REMOTE kept (R20). -/
def ChannelEntry.muted (e : ChannelEntry) : ChannelEntry :=
  (if e.view.isLocal then e.toFree else e).unsubscribed

/-- The order of MUTED entry's completions: ascending channel number, then the station kind (R162). -/
def PendingRequest.mutedOrder (r : PendingRequest) : Nat :=
  match r.channel with
  | some c => c.toNat
  | none => 1024

/-- The completion MUTED entry gives a pending request (R162). -/
def PendingRequest.mutedRecord (r : PendingRequest) : EventRecord :=
  Ending.completes { result := if r.kind = .withdraw then .incomplete else .abandoned } r

/-- MUTED entry (R162). -/
def State.enterMuted (s : State) (reason : MuteReason) : State :=
  let completions := (sortByKey PendingRequest.mutedOrder s.port.requests).map PendingRequest.mutedRecord
  let s₁ :=
    { s with
      channels := mapEntries ChannelEntry.muted s.channels,
      slots := [],
      contexts := [],
      store := { s.store with free := s.store.free + dataEntries s.store.fifo, fifo := [] },
      span := { s.span with replies := [] },
      station := { s.station with mode := .muted reason, presence := none, listen := none, beacon := none },
      port := { s.port with requests := [] },
      events := { s.events with records := s.events.records ++ completions } }
  s₁.notify (.muted reason)

/-- The duplicate-number event (R127, R157). -/
def State.duplicateNumber (s : State) : State :=
  let s₁ := { s with span := { s.span with duplicates := countUp s.span.duplicates } }
  match s.station.mode with
  | .listening =>
    (s₁.completeHeld (s₁.stationRequest .attach)
      { result := .duplicate, station := some s.station.number }).enterDetached
  | .active | .withdrawing => s₁.enterMuted .duplicateNumber
  | .detached | .muted _ => s₁

end Sys2Proof.Machine
end

