-- ==== Sys2Proof/Machine/Receive.lean ====
section
/-! DEFINITION. A message heard: the receiver's tests (R134, R135), the Peer Table (R118 to R122), the Channel Table
(R9 to R18), and then the block that consumes the kind: the owner side, the consumer side, the Classifier. -/

namespace Sys2Proof.Machine

/-! ### The Peer Table -/

/-- The arrival of the message's source (R119). -/
def State.arrive (s : State) (h : Header) (b : Body) : State :=
  let interval := announcedInterval b
  let p : Peer := ⟨h.epoch, interval, s.peerTimeout interval, 0⟩
  ({ s with peers := FMap.insert s.peers h.source.toNat p } : State).notify (.peerArrived h.source h.epoch)

/-- The continued presence of the message's source (R120). -/
def State.continuePresence (s : State) (h : Header) (b : Body) (p : Peer) : State :=
  let interval := (announcedInterval b).or p.interval
  let p' : Peer := { p with interval := interval, timer := s.peerTimeout interval, sinceHeard := 0 }
  { s with peers := FMap.insert s.peers h.source.toNat p' }

/-- The Peer Table takes a message whole: arrival, continued presence, epoch change or departure (R118 to R122). -/
def State.peerTakes (s : State) (h : Header) (b : Body) : State :=
  match FMap.find? s.peers h.source.toNat with
  | none => if departingBeacon h b then s else s.arrive h b
  | some p =>
    if departingBeacon h b then s.depart h.source .departed p.epoch
    else if p.epoch = h.epoch then s.continuePresence h b p
    else (s.depart h.source .restarted p.epoch).arrive h b

/-! ### The Channel Table -/

/-- The owner-change rule: a JOINED, LEAVING or DRAINING context whose owner is not x is orphaned (R14). -/
def State.ownerChanges (s : State) (c : Channel) (x : Station) : State :=
  match s.contextOf c with
  | some (i, k) => if k.state ≠ .joining ∧ k.owner ≠ some x then s.orphan i k .ownerChanged x else s
  | none => s

/-- An owner-indicating message from x, by the view of its channel (R10, R11, R13, R16, R18). -/
def State.ownerIndicated (s : State) (c : Channel) (x : Station) : State :=
  match (s.entry c).view with
  | .free | .heldRemote => (s.setEntry c ((s.entry c).toRemote x)).ownerChanges c x
  | .claiming =>
    match s.slotOf c with
    | some (i, sl) => s.yieldTo i sl x
    | none => s
  | .announcing | .heldLocal | .releasing =>
    match s.slotOf c with
    | some (i, sl) => if x < s.station.number then s.loseChannel i sl x else s.putSlot i sl.defend
    | none => s

/-- What the Channel Table does with a message before its consumer acts: learning and conflict for an owner-indicating
message (R10), and a RELEASE of the recorded owner (R12). -/
def State.channelTakes (s : State) (h : Header) (b : Body) : State :=
  if ownerIndicating b then s.ownerIndicated h.channel h.source
  else if b = .release ∧ (s.entry h.channel).view = .heldRemote ∧ (s.entry h.channel).owner = some h.source then
    s.setEntry h.channel (s.entry h.channel).toFree
  else s

/-! ### The owner side -/

/-- A CLAIM from a peer: a CLAIMING slot yields to a lower number (R31); a committed slot answers HOLD (R34). -/
def State.takeClaim (s : State) (h : Header) : State :=
  match (s.entry h.channel).view with
  | .claiming =>
    match s.slotOf h.channel with
    | some (i, sl) =>
      if h.source < s.station.number then
        (s.freeSlot i sl.channel none).completeHeld sl.tag { result := .lostContest, station := some h.source }
      else s
    | none => s
  | .announcing | .heldLocal | .releasing => s.addReply .hold h.channel h.source
  | .free | .heldRemote => s

/-- A JOIN from a peer, by the view of its channel (R70, R71). -/
def State.takeJoin (s : State) (h : Header) : State :=
  if s.addressedOrAll h = false then s
  else
    match (s.entry h.channel).view with
    | .heldLocal =>
      match s.slotOf h.channel with
      | some (i, sl) =>
        let next := (oldestSequence h.channel s.store.fifo).getD (sl.transmitSequence.getD 0)
        (s.putSlot i { sl with subscribers := addStation sl.subscribers h.source }).addReply (.admission next) h.channel h.source
      | none => s
    | .releasing => s.addReply (.deny .releasing) h.channel h.source
    | .claiming | .announcing => s
    | .free | .heldRemote => if s.addressed h then s.addReply (.deny .notOwner) h.channel h.source else s

/-- A LEAVE from a peer, by the view of its channel and its destination (R32, R54, R77). -/
def State.takeLeave (s : State) (h : Header) : State :=
  if s.addressedOrAll h = false then s
  else
    match (s.entry h.channel).view with
    | .heldLocal | .releasing =>
      match s.slotOf h.channel with
      | some (i, sl) => (s.putSlot i (sl.forget h.source)).addReply .left h.channel h.source
      | none => s
    | .claiming | .announcing | .free | .heldRemote =>
      if s.addressed h then s.addReply .left h.channel h.source else s

/-- A DRAINED addressed to this station removes its source from the awaited set of a slot in the drain stage (R48, R49). -/
def State.takeDrained (s : State) (h : Header) : State :=
  if s.addressed h then
    match s.slotOf h.channel with
    | some (i, sl) => if sl.phase = .releasing then s.putSlot i (sl.confirm h.source) else s
    | none => s
  else s

/-! ### The consumer side -/

/-- An ADMIT addressed to this station (R72, R79). -/
def State.takeAdmit (s : State) (h : Header) (next : Seq) : State :=
  if s.addressed h then
    match s.contextOf h.channel with
    | some (i, k) =>
      if k.state = .joining then
        ((s.putContext i { k with state := .joined, owner := some h.source, expected := some next, owed := none,
                                  attemptsUsed := none, responseTimer := none, tag := none }).setEntry h.channel
          ((s.entry h.channel).subscribed .joined i)).completeHeld k.tag { result := .ok, station := some h.source }
      else s
    | none => if (s.entry h.channel).view.isLocal then s else s.addReply .cleanupLeave h.channel h.source
  else s

/-- A JOINING context is freed and its JOIN completes (R69, R73, R74, R82). -/
def State.endJoin (s : State) (i : Nat) (k : Context) (e : Ending) : State :=
  (s.freeContext i k.channel).completeHeld k.tag e

/-- A DENY with reason RELEASING addressed to this station ends a join (R73). -/
def State.takeDenyReleasing (s : State) (h : Header) : State :=
  if s.addressed h then
    match s.contextOf h.channel with
    | some (i, k) =>
      if k.state = .joining then s.endJoin i k { result := .denied, station := some h.source } else s
    | none => s
  else s

/-- A DENY with reason NOT_OWNER addressed to this station, for a JOINING context whose channel is recorded as held by its
source: the view becomes FREE, and the JOIN goes to all stations or, at the limit, ends (R15, R73). -/
def State.takeDenyNotOwner (s : State) (h : Header) : State :=
  if s.addressed h then
    match s.contextOf h.channel with
    | some (i, k) =>
      if k.state = .joining ∧ (s.entry h.channel).view = .heldRemote ∧ (s.entry h.channel).owner = some h.source then
        let s₁ := s.setEntry h.channel (s.entry h.channel).toFree
        if s.attemptLimit ≤ k.attemptsUsed.getD 0 then s₁.endJoin i k { result := .noOwner }
        else if k.owed.any (fun o => o.onWire) then s₁
        else s₁.putContext i { k with responseTimer := none, owed := some (.fresh .join 0) }
      else s
    | none => s
  else s

/-- A LEFT addressed to this station, from the owner of a LEAVING context, ends the leave (R78). -/
def State.takeLeft (s : State) (h : Header) : State :=
  if s.addressed h then
    match s.contextOf h.channel with
    | some (i, k) =>
      if k.state = .leaving ∧ k.owner = some h.source then
        (s.freeContext i k.channel).completeHeld k.tag { result := .ok }
      else s
    | none => s
  else s

/-- A DRAIN from the context's owner (R57, R58). -/
def State.takeDrain (s : State) (h : Header) : State :=
  match s.contextOf h.channel with
  | some (i, k) =>
    if k.owner = some h.source then
      match k.state with
      | .joined =>
        let k' := { k with state := .draining, drainedSent := false, drainWait := some s.drainWaitTime }
        (s.putContext i (if (s.entry h.channel).queued = 0 then k'.oweDrained else k')).setEntry h.channel
          ((s.entry h.channel).subscribed .draining i)
      | .draining => if (s.entry h.channel).queued = 0 then s.putContext i k.oweDrained else s
      | .leaving | .joining => s
    else s
  | none => s

/-- A RELEASE from the context's owner ends the subscription; the view is FREE already (R12, R62). -/
def State.takeRelease (s : State) (h : Header) : State :=
  match s.contextOf h.channel with
  | some (i, k) =>
    if k.state ≠ .joining ∧ k.owner = some h.source then
      ((s.freeContext i k.channel).notify
        (.channelReleased k.channel (if k.drainedSent then .normal else .undrained) h.source)).completeHeld k.tag
        { result := .ok }
    else s
  | none => s

/-! ### The Classifier -/

/-- The two payload octets a filter compares, first octet most significant (R95, R96). -/
def comparedOctets (offset : Nat) (payload : List Octet) : Half :=
  joinOctets (payload.getD offset 0) (payload.getD (offset + 1) 0)

/-- An enabled filter matches a cell: channel range, payload length, and the masked octets (R96). -/
def Filter.matchesCell (f : Filter) (c : Channel) (payload : List Octet) : Bool :=
  f.enabled && (f.channelLow.toNat ≤ c.toNat) && (c.toNat ≤ f.channelHigh.toNat) &&
    (f.offset.toNat + 2 ≤ payload.length) && ((comparedOctets f.offset.toNat payload ^^^ f.value) &&& f.mask = 0)

/-- The filter of a number (R95). -/
def State.filter (s : State) (k : Fin 4) : Filter := (FMap.find? s.classifier.filters k.val).getD Filter.initial

/-- The lowest-numbered filter that matches (R90). -/
def State.matchingFilter (s : State) (c : Channel) (payload : List Octet) : Option (Fin 4) :=
  [(0 : Fin 4), 1, 2, 3].find? (fun k => (s.filter k).matchesCell c payload)

/-- The expected sequence of a context for which a cell from x is eligible (R80, R86). -/
def Context.eligible (k : Context) (x : Station) : Option Seq :=
  if (k.state = .joined ∨ k.state = .leaving) ∧ k.owner = some x then k.expected else none

/-- A stray cell counted (R87, R92). -/
def State.countStray (s : State) : State :=
  { s with classifier := { s.classifier with stray := countUp s.classifier.stray } }

/-- Steps 2 to 7 of the classification: discard flag, trap flag, filters, delivery, draining, ignored (R85, R88 to R92).
The missing count is present for an eligible cell only (R86). -/
def State.routeCell (s : State) (h : Header) (q : Seq) (payload : List Octet) (missing : Option Nat) : State :=
  let e := s.entry h.channel
  let cell := fun route => (⟨h.channel, h.source, q, missing, route, payload⟩ : Descriptor)
  if e.discard then s
  else if e.trap then s.offer .qm (cell .channelTrap)
  else
    match s.matchingFilter h.channel payload with
    | some k => s.offer .qm (cell (.filter k))
    | none =>
      if missing.isSome then s.offer (queueOfGroup e.group) (cell .delivered)
      else if (s.contextOf h.channel).any (fun row => row.2.state = .draining) then s.countStray
      else s

/-- A DATA cell classified: the sequence check of an eligible cell, whose effect on the expected sequence stands (R80, R86,
R87), then the steps of R85. -/
def State.classify (s : State) (h : Header) (q : Seq) (payload : List Octet) : State :=
  match (s.contextOf h.channel).bind (fun row => (row.2.eligible h.source).map fun e => (row.1, row.2, e)) with
  | some (i, k, e) =>
    if 128 ≤ (q - e).toNat then s.countStray
    else (s.putContext i { k with expected := some (q + 1) }).routeCell h q payload (some (q - e).toNat)
  | none => s.routeCell h q payload none

/-! ### The receiver -/

/-- The block that consumes a message of the kind, after the Peer Table and the Channel Table (R135). -/
def State.consume (s : State) (h : Header) : Body → State
  | .claim => s.takeClaim h
  | .hold => s
  | .announce => s
  | .join => s.takeJoin h
  | .admission next => s.takeAdmit h next
  | .deny .releasing => s.takeDenyReleasing h
  | .deny .notOwner => s.takeDenyNotOwner h
  | .leave => s.takeLeave h
  | .left => s.takeLeft h
  | .drain => s.takeDrain h
  | .drained => s.takeDrained h
  | .release => s.takeRelease h
  | .data q payload => s.classify h q payload
  | .beacon _ => s

/-- An intact message of a peer: Peer Table, Channel Table, consumer, in this order (R9, R84, R118, R135). A BEACON goes
no further than the Peer Table. -/
def State.hear (s : State) (h : Header) (b : Body) : State :=
  match b with
  | .beacon i => s.peerTakes h (.beacon i)
  | b => ((s.peerTakes h b).channelTakes h b).consume h b

/-- A malformed message counted (R134). -/
def State.countMalformed (s : State) : State :=
  { s with span := { s.span with malformed := countUp s.span.malformed } }

/-- A message that has ended on the line, as the receiver takes it (R134, R135): nothing in DETACHED; malformed when its
body is none or its header fails; with the own number, a duplicate-number event while the station is not transmitting
(R127); otherwise a peer's message. -/
def State.receive (s : State) (h : Header) (body : Option Body) : State :=
  if s.receiverOn = false then s
  else
    match body with
    | none => s.countMalformed
    | some b =>
      if h.valid = false then s.countMalformed
      else if h.source = s.station.number then
        if s.span.attempt.isSome then s else s.duplicateNumber
      else s.hear h b

end Sys2Proof.Machine
end

