-- ==== Sys2Proof/Machine/Messages.lean ====
section
/-! DEFINITION. The messages heard, one command for each kind (R133, R135), a malformed message (R134), and the
duplicate-number event (R127, R157). -/

namespace Sys2Proof.Machine

/-- CLAIM heard (R13, R31, R34). -/
def execClaimMessage (h : Header) (s : State) : Host.Outcome State Fault Refusal := .next (s.receive h (some .claim))

/-- HOLD heard (R10). -/
def execHoldMessage (h : Header) (s : State) : Host.Outcome State Fault Refusal := .next (s.receive h (some .hold))

/-- ANNOUNCE heard (R10). -/
def execAnnounceMessage (h : Header) (s : State) : Host.Outcome State Fault Refusal := .next (s.receive h (some .announce))

/-- JOIN heard (R70). -/
def execJoinMessage (h : Header) (s : State) : Host.Outcome State Fault Refusal := .next (s.receive h (some .join))

/-- ADMIT heard (R10, R72). -/
def execAdmitMessage (h : Header) (next : Seq) (s : State) : Host.Outcome State Fault Refusal :=
  .next (s.receive h (some (.admission next)))

/-- DENY heard (R10, R15, R73); a reason octet that is neither 1 nor 2 makes it malformed (R134). -/
def execDenyMessage (h : Header) (reason : Octet) (s : State) : Host.Outcome State Fault Refusal :=
  .next (s.receive h (denyBody? reason))

/-- LEAVE heard (R54, R77). -/
def execLeaveMessage (h : Header) (s : State) : Host.Outcome State Fault Refusal := .next (s.receive h (some .leave))

/-- LEFT heard (R78). -/
def execLeftMessage (h : Header) (s : State) : Host.Outcome State Fault Refusal := .next (s.receive h (some .left))

/-- DRAIN heard (R10, R57, R58). -/
def execDrainMessage (h : Header) (s : State) : Host.Outcome State Fault Refusal := .next (s.receive h (some .drain))

/-- DRAINED heard (R48). -/
def execDrainedMessage (h : Header) (s : State) : Host.Outcome State Fault Refusal := .next (s.receive h (some .drained))

/-- RELEASE heard (R12, R62). -/
def execReleaseMessage (h : Header) (s : State) : Host.Outcome State Fault Refusal := .next (s.receive h (some .release))

/-- DATA heard (R10, R84, R85); a length octet outside 1 to 64 makes it malformed (R134). -/
def execDataMessage (h : Header) (sequence : Seq) (length : Octet) (payload : List Octet) (s : State) :
    Host.Outcome State Fault Refusal :=
  .next (s.receive h (dataBody? sequence length payload))

/-- BEACON heard (R119, R120, R122). -/
def execBeaconMessage (h : Header) (interval : Octet) (s : State) : Host.Outcome State Fault Refusal :=
  .next (s.receive h (some (.beacon interval)))

/-- MALFORMED_MESSAGE (R134): dropped and counted while the receiver is on. Octets that are an intact message are taken as
that message (log 16). -/
def execMalformedMessage (octets : List Octet) (s : State) : Host.Outcome State Fault Refusal :=
  .next <|
    match parseMessage octets with
    | some m => s.receive m.header (some m.body)
    | none => if s.receiverOn then s.countMalformed else s

/-- DUPLICATE_NUMBER_EVENT (R127, R157): it occurs while the receiver is on and the station is not transmitting. -/
def execDuplicateNumberEvent (s : State) : Host.Outcome State Fault Refusal :=
  .next <| if s.receiverOn = true ∧ s.span.attempt = none then s.duplicateNumber else s

end Sys2Proof.Machine
end

