-- ==== Sys2Proof/Machine/Responses.lean ====
section
/-! DEFINITION. What the local port answers: result codes (R173), the layouts of returned data (R103, R174, R182), and the
checks every long request passes first (R176). -/

namespace Sys2Proof.Machine

/-! ### Results (R173) -/

/-- The results a response can carry (R173). -/
inductive Result where
  | ok
  | empty
  | badRequest
  | badTag
  | tagInUse
  | tableFull
  | eventsFull
  | wrongState
  | notLoaded
  | badStation
  | queuesNotEmpty
  | badField
  | notActive
  | badChannel
  | busy
  | alreadyOwner
  | subscribed
  | noSlot
  | notOwner
  | localOwner
  | alreadyJoined
  | noContext
  | notJoined
  | releasing
  | badLength
  | txFull
  | noBuffer
  | tooLate
  | notAbortable
  | noSuchTag
  deriving DecidableEq, Repr

/-- The value of the result octet (R173). -/
def Result.code : Result → Octet
  | .ok => 0
  | .empty => 1
  | .badRequest => 2
  | .badTag => 3
  | .tagInUse => 4
  | .tableFull => 5
  | .eventsFull => 6
  | .wrongState => 7
  | .notLoaded => 8
  | .badStation => 9
  | .queuesNotEmpty => 10
  | .badField => 11
  | .notActive => 12
  | .badChannel => 13
  | .busy => 14
  | .alreadyOwner => 15
  | .subscribed => 16
  | .noSlot => 17
  | .notOwner => 18
  | .localOwner => 19
  | .alreadyJoined => 20
  | .noContext => 21
  | .notJoined => 22
  | .releasing => 23
  | .badLength => 24
  | .txFull => 25
  | .noBuffer => 26
  | .tooLate => 27
  | .notAbortable => 28
  | .noSuchTag => 29

/-- A transaction of the local port with its effect: none while RSTn is asserted; the one whose CSn was asserted before
RSTn was deasserted is not taken, and ends; every other is taken (R189, log 18). -/
def State.transact (s : State) (effect : State → State) : State :=
  if s.station.inReset then s
  else if s.port.unread then { s with port := { s.port with unread := false } }
  else effect s

/-- The response octets the port has to shift out (R167, R168). -/
def State.setResponse (s : State) (octets : List Octet) : State := { s with port := { s.port with response := octets } }

/-- A response: the result octet and the data that follow it (R172). -/
def State.respond (s : State) (r : Result) (data : List Octet) : State := s.setResponse (r.code :: data)

/-- A list of checks: the condition under which each refuses, and its result. -/
abbrev Checks := List (Bool × Result)

/-- The first check of a list, in order, whose condition holds (R26, R42, R67, R75, R97, R111, R152, R154, R176). -/
def firstFailing : Checks → Option Result
  | [] => none
  | (failed, r) :: rest => if failed then some r else firstFailing rest

/-- The checks common to all long requests, in order (R176). -/
def State.longChecks (s : State) (tag : Octet) : Checks :=
  [(tag = 0, .badTag),
   ((s.requestWith tag).isSome, .tagInUse),
   (Config.requestPlaces ≤ s.port.requests.length, .tableFull),
   (Config.eventPlaces ≤ s.eventSum, .eventsFull)]

/-! ### Codes -/

/-- The code of a view (R22). -/
def View.code : View → Octet
  | .free => 0
  | .heldRemote => 1
  | .claiming => 2
  | .announcing => 3
  | .heldLocal => 4
  | .releasing => 5

/-- The code of a subscription state (R22). -/
def SubscriptionState.code : SubscriptionState → Octet
  | .none => 0
  | .joining => 1
  | .joined => 2
  | .leaving => 3
  | .draining => 4

/-- The code of a station state (R166). -/
def Mode.code : Mode → Octet
  | .detached => 0
  | .listening => 1
  | .active => 2
  | .withdrawing => 3
  | .muted _ => 4

/-- The code of a muted reason (R174, R182). -/
def MuteReason.code : MuteReason → Octet
  | .spanFailures => 1
  | .duplicateNumber => 2

/-- The muted reason octet of READ_STATION: 0 when absent (R174). -/
def Mode.reasonCode : Mode → Octet
  | .muted reason => reason.code
  | .detached | .listening | .active | .withdrawing => 0

/-- The request code of a long request (R171, R182). -/
def RequestKind.code : RequestKind → Octet
  | .attach => 2
  | .withdraw => 3
  | .claim => 6
  | .release => 7
  | .join => 9
  | .leave => 10

/-- The code of a completion's result (R182). -/
def CompletionResult.code : CompletionResult → Octet
  | .ok => 0
  | .heldByOther => 1
  | .lostContest => 2
  | .sendFailed => 3
  | .aborted => 4
  | .abandoned => 5
  | .forced => 6
  | .ownershipLost => 7
  | .denied => 8
  | .noOwner => 9
  | .unconfirmed => 10
  | .ownerLost => 11
  | .duplicate => 12
  | .incomplete => 13

/-- The code of a PEER_LOST's reason (R182). -/
def LostReason.code : LostReason → Octet
  | .timeout => 1
  | .restarted => 2
  | .departed => 3

/-- The code of a CHANNEL_ORPHANED's reason (R182). -/
def OrphanReason.code : OrphanReason → Octet
  | .ownerChanged => 1
  | .ownerDeparted => 2

/-- The code of a CHANNEL_RELEASED's reason (R182). -/
def ReleaseReason.code : ReleaseReason → Octet
  | .normal => 1
  | .undrained => 2
  | .implied => 3

/-! ### Layouts -/

/-- A number as one octet. -/
def octetOf (n : Nat) : Octet := BitVec.ofNat 8 n

/-- A number as two octets, most significant first. -/
def numberOctets (n : Nat) : List Octet := halfOctets (BitVec.ofNat 16 n)

/-- A channel as two octets, most significant first. -/
def channelOctets (c : Channel) : List Octet := numberOctets c.toNat

/-- A station as one octet. -/
def stationOctet (x : Station) : Octet := octetOf x.toNat

/-- One bit of a presence octet. -/
def presenceBit (n : Nat) (present : Bool) : Octet := if present then BitVec.twoPow 8 n else 0

/-- A set of stations as eight octets, octet 0 with bits 63 to 56 (R174). -/
def stationSetOctets (set : StationSet) : List Octet :=
  [set.extractLsb' 56 8, set.extractLsb' 48 8, set.extractLsb' 40 8, set.extractLsb' 32 8, set.extractLsb' 24 8,
   set.extractLsb' 16 8, set.extractLsb' 8 8, set.extractLsb' 0 8]

/-- The route octet of a descriptor (R103). -/
def Route.octet : Route → Octet
  | .delivered => 0x00
  | .channelTrap => 0x40
  | .filter k => 0x80 ||| octetOf k.val

/-- A cell descriptor as TAKE returns it, with the number of descriptors left in the queue (R103). -/
def Descriptor.octets (d : Descriptor) (remaining : Nat) : List Octet :=
  halfOctets (d.channel ++ d.source) ++
    [d.sequence, octetOf d.payload.length,
     match d.missing with
     | some n => 0x80 ||| octetOf n
     | none => 0,
     d.route.octet, octetOf remaining] ++ d.payload

/-- An event record's eleven octets from its fields (R182). -/
def recordOctets (kind : Octet) (unannounced : Bool) (tag request reason : Octet) (channel : Option Channel)
    (station : Option Station) (count : Option Nat) (lost : Octet) : List Octet :=
  [kind,
   presenceBit 0 channel.isSome ||| presenceBit 1 station.isSome ||| presenceBit 2 count.isSome |||
     presenceBit 7 unannounced,
   tag, request, reason] ++ channelOctets (channel.getD 0) ++ [stationOctet (station.getD 0)] ++
    numberOctets (count.getD 0) ++ [lost]

/-- A notification's record, with its lost-notification count (R181, R182). -/
def Notification.octets (lost : Octet) : Notification → List Octet
  | .peerArrived x epoch => recordOctets 2 false 0 0 0 none (some x) (some epoch.toNat) lost
  | .peerLost x reason epoch => recordOctets 3 false 0 0 reason.code none (some x) (some epoch.toNat) lost
  | .channelOrphaned c reason x => recordOctets 4 false 0 0 reason.code (some c) (some x) none lost
  | .channelReleased c reason x => recordOctets 5 false 0 0 reason.code (some c) (some x) none lost
  | .ownershipLost c x => recordOctets 6 false 0 0 0 (some c) (some x) none lost
  | .queueOverflow q c x drops => recordOctets 7 false 0 0 (octetOf q.number) (some c) (some x) (some drops.toNat) lost
  | .muted reason => recordOctets 8 false 0 0 reason.code none none none lost
  | .restarted => recordOctets 9 false 0 0 0 none none none lost

/-- An event record as READ_EVENT returns it (R182). -/
def EventRecord.octets : EventRecord → List Octet
  | .completion r =>
    recordOctets 1 r.unannounced r.tag r.kind.code r.result.code r.channel r.station r.count 0
  | .notification n lost => n.octets lost

/-- The arrival actions encoded as SET_ACTION's octet (R171, R174). -/
def ChannelEntry.actionsOctet (e : ChannelEntry) : Octet :=
  presenceBit 7 e.discard ||| presenceBit 6 e.trap ||| octetOf e.group.val

/-- The 31 octets of READ_STATION (R166, R174). R149 names the reply queue among the items READ_STATION returns; the
chapter that owns the format (00_scope.md section 4, R166) gives it no octet (R171, R174). DEDUCED (log 22). -/
def State.stationOctets (s : State) : List Octet :=
  [s.station.mode.code, s.station.mode.reasonCode, stationOctet s.station.number, s.station.epoch,
   presenceBit 0 s.loaded, octetOf s.span.failures] ++
    numberOctets s.store.free ++ [octetOf s.store.fifo.length] ++
    halfOctets s.span.malformed ++ halfOctets s.span.replyOverflows ++ halfOctets s.classifier.stray ++
    halfOctets s.store.sendFailures ++ halfOctets s.store.q0.drops ++ halfOctets s.store.q1.drops ++
    halfOctets s.store.q2.drops ++ halfOctets s.store.q3.drops ++ halfOctets s.store.qm.drops ++
    halfOctets s.port.frameErrors ++ halfOctets s.span.duplicates

/-- The owner station READ_CHANNEL returns: present outside FREE (R22). -/
def ChannelEntry.shownOwner (e : ChannelEntry) : Option Station := if e.view = .free then none else e.owner

/-- The context's fields READ_CHANNEL returns: present in JOINED, LEAVING and DRAINING (R22). -/
def State.shownContext (s : State) (c : Channel) : Option Context :=
  match (s.entry c).subscription with
  | .joined | .leaving | .draining => (s.contextOf c).map Prod.snd
  | .none | .joining => none

/-- The slot's fields READ_CHANNEL returns: present in HELD_LOCAL and RELEASING (R22). -/
def State.shownSlot (s : State) (c : Channel) : Option Slot :=
  match (s.entry c).view with
  | .heldLocal | .releasing => (s.slotOf c).map Prod.snd
  | .free | .heldRemote | .claiming | .announcing => none

/-- The awaited count READ_CHANNEL returns: present in RELEASING after the drain snapshot (R22, R45). -/
def State.shownAwaited (s : State) (c : Channel) : Option Nat :=
  if (s.entry c).view = .releasing ∧ s.markerWaits c = false then
    (s.shownSlot c).map fun sl => stationCount sl.awaited
  else none

/-- The 19 octets of READ_CHANNEL (R22, R174). -/
def State.channelData (s : State) (c : Channel) : List Octet :=
  let e := s.entry c
  let owner := e.shownOwner
  let contextOwner := (s.shownContext c).bind fun k => k.owner
  let expected := (s.shownContext c).bind fun k => k.expected
  let sequence := (s.shownSlot c).bind fun sl => sl.transmitSequence
  let subscribers := (s.shownSlot c).map fun sl => sl.subscribers
  let awaited := s.shownAwaited c
  [presenceBit 0 owner.isSome ||| presenceBit 1 contextOwner.isSome ||| presenceBit 2 expected.isSome |||
     presenceBit 3 sequence.isSome ||| presenceBit 4 subscribers.isSome ||| presenceBit 5 awaited.isSome,
   e.view.code, stationOctet (owner.getD 0), e.actionsOctet] ++ numberOctets e.queued ++
    [e.subscription.code, stationOctet (contextOwner.getD 0), expected.getD 0, sequence.getD 0] ++
    stationSetOctets (subscribers.getD 0) ++ [octetOf (awaited.getD 0)]

/-- The 8 octets of READ_PEER for a station number 1 to 62 (R128, R174). -/
def State.peerData (s : State) (x : Station) : List Octet :=
  if x = s.station.number then [0, 2, 0, 0, 0, 0, 0, 0]
  else
    match FMap.find? s.peers x.toNat with
    | some p =>
      [presenceBit 0 true ||| presenceBit 1 p.interval.isSome ||| presenceBit 2 true ||| presenceBit 3 true, 1, p.epoch,
       p.interval.getD 0] ++ numberOctets p.sinceHeard ++ numberOctets (s.peerTimeout p.interval)
    | none => [0, 0, 0, 0, 0, 0, 0, 0]

/-- The 10 octets of READ_FILTER (R98, R174). -/
def Filter.octets (f : Filter) : List Octet :=
  [presenceBit 0 f.enabled] ++ channelOctets f.channelLow ++ channelOctets f.channelHigh ++ [f.offset] ++
    halfOctets f.value ++ halfOctets f.mask

end Sys2Proof.Machine
end

