-- ==== Sys2Proof/Machine/StationRequests.lean ====
section
/-! DEFINITION. The requests that act on the station as a whole, and power-on reset: LOAD_STARTUP (R152), ATTACH (R154,
R155), WITHDRAW (R158), RESTART (R164), READ_STATION (R166), POWER_ON_RESET (R165). -/

namespace Sys2Proof.Machine

/-- A receive queue whose overflow-notified flag is clear (R102). -/
def ReceiveQueue.clearFlag (r : ReceiveQueue) : ReceiveQueue := { r with overflowNotified := false }

/-- A receive queue emptied, its flag clear and its drop counter kept (R115). -/
def ReceiveQueue.emptied (r : ReceiveQueue) : ReceiveQueue := { r with cells := [], overflowNotified := false }

/-- The store with every receive queue changed by f. -/
def CellStore.mapQueues (f : ReceiveQueue → ReceiveQueue) (c : CellStore) : CellStore :=
  { c with q0 := f c.q0, q1 := f c.q1, q2 := f c.q2, q3 := f c.q3, qm := f c.qm }

/-! ### LOAD_STARTUP -/

/-- An accepted LOAD_STARTUP: every field takes its value, and every overflow-notified flag clears (R152). -/
def State.acceptStartup (s : State) (fields : StartupRecord) : State :=
  { s with station := { s.station with startup := some fields },
           store := s.store.mapQueues ReceiveQueue.clearFlag }

/-- LOAD_STARTUP (R152): WRONG_STATE, QUEUES_NOT_EMPTY, BAD_FIELD with the lowest index, or the record whole. -/
def execLoadStartup (_tag : Octet) (fields : StartupRecord) (s : State) : Host.Outcome State Fault Refusal :=
  .next <| s.transact fun s =>
    if s.station.mode ≠ .detached then s.respond .wrongState []
    else if s.store.queuesEmpty = false ∨ s.store.fifo ≠ [] then s.respond .queuesNotEmpty []
    else
      match badField fields with
      | some index => s.respond .badField [index]
      | none => (s.acceptStartup fields).respond .ok []

/-! ### ATTACH -/

/-- The checks of ATTACH, in order (R154, R176). -/
def State.attachChecks (s : State) (tag : Octet) : Checks :=
  List.append (s.longChecks tag)
    [(s.transmitterOn, .wrongState),
     (s.station.mode = .detached && !s.loaded, .notLoaded),
     (s.station.number = 0 || s.station.number = 63, .badStation)]

/-- An accepted ATTACH (R155); from MUTED the receiver stays on at the same rate. -/
def State.acceptAttach (s : State) (tag : Octet) : State :=
  State.enterRequest
    { s with
      station := { s.station with mode := .listening, epoch := nextEpoch s.station.epoch, presence := some s.presenceTime,
                                  listen := some s.listenTime, beacon := some ⟨false, 0, false⟩ },
      span := { s.span with failures := 0, rate := if s.station.mode = .detached then some s.record.rateClass
                                                    else s.span.rate } }
    tag .attach none

/-- ATTACH (R154, R155). -/
def execAttach (tag : Octet) (s : State) : Host.Outcome State Fault Refusal :=
  .next <| s.transact fun s =>
    match firstFailing (s.attachChecks tag) with
    | some r => s.respond r []
    | none => (s.acceptAttach tag).respond .ok []

/-! ### WITHDRAW -/

/-- The work a withdrawal abandons: a CLAIMING slot or a JOINING context (R40, R82). -/
inductive Abandoned where
  | claim (index : Nat) (slot : Slot)
  | join (index : Nat) (context : Context)

/-- The channel of abandoned work. -/
def Abandoned.channel : Abandoned → Channel
  | .claim _ sl => sl.channel
  | .join _ k => k.channel

/-- The CLAIMING slots and the JOINING contexts, in ascending channel number (R158). -/
def State.abandonedWork (s : State) : List Abandoned :=
  sortByKey (fun a => a.channel.toNat)
    (s.slots.filterMap (fun row => if row.2.phase = .claiming then some (.claim row.1 row.2) else none) ++
      s.contexts.filterMap (fun row => if row.2.state = .joining then some (.join row.1 row.2) else none))

/-- One piece of work abandoned: freed, and its request completes ABANDONED (R40, R82). -/
def State.abandon (s : State) : Abandoned → State
  | .claim i sl => (s.freeSlot i sl.channel none).completeHeld sl.tag { result := .abandoned }
  | .join i k => (s.freeContext i k.channel).completeHeld k.tag { result := .abandoned }

/-- A HELD slot is released without a tag (R43, R158). -/
def State.withdrawSlot (s : State) (row : Nat × Slot) : State :=
  if row.2.phase = .held then s.startRelease row.1 row.2 none else s

/-- A JOINED or DRAINING context becomes LEAVING without a tag (R82). -/
def State.withdrawContext (s : State) (row : Nat × Context) : State :=
  if row.2.state = .joined ∨ row.2.state = .draining then s.startLeave row.1 row.2 none else s

/-- An accepted WITHDRAW (R158): abandoned work in ascending channel number, releases in ascending slot index, leaves, and
then the test of R159. -/
def State.acceptWithdraw (s : State) (tag : Octet) : State :=
  let s₁ := ({ s with station := { s.station with mode := .withdrawing } } : State).enterRequest tag .withdraw none
  let s₂ := s₁.abandonedWork.foldl State.abandon s₁
  let s₃ := s₂.slots.foldl State.withdrawSlot s₂
  (s₃.contexts.foldl State.withdrawContext s₃).testWithdrawal

/-- The checks of WITHDRAW, in order (R158, R176). -/
def State.withdrawChecks (s : State) (tag : Octet) : Checks :=
  List.append (s.longChecks tag) [(s.station.mode ≠ .active, .notActive)]

/-- WITHDRAW (R158). -/
def execWithdraw (tag : Octet) (s : State) : Host.Outcome State Fault Refusal :=
  .next <| s.transact fun s =>
    match firstFailing (s.withdrawChecks tag) with
    | some r => s.respond r []
    | none => (s.acceptWithdraw tag).respond .ok []

/-! ### RESTART -/

/-- What RESTART makes of an entry: FREE, NONE, queued count 0, arrival actions kept (R21). -/
def ChannelEntry.restarted (e : ChannelEntry) : ChannelEntry := { e.toFree.unsubscribed with queued := 0 }

/-- The station after RESTART (R164, R115, R188). -/
def State.restarted (s : State) : State :=
  { s with
    channels := mapEntries ChannelEntry.restarted s.channels,
    slots := [],
    contexts := [],
    peers := [],
    store := { s.store.mapQueues ReceiveQueue.emptied with free := Config.bufferCount, fifo := [] },
    span := { s.span with replies := [], attempt := none, failures := 0, rate := none },
    station := { s.station with mode := .detached, presence := none, listen := none, beacon := none },
    port := { s.port with requests := [] },
    events := { records := [.notification .restarted 0], lost := 0 } }

/-- RESTART (R164). -/
def execRestart (_tag : Octet) (s : State) : Host.Outcome State Fault Refusal :=
  .next <| s.transact fun s => s.restarted.respond .ok []

/-! ### READ_STATION and power-on reset -/

/-- READ_STATION (R166). -/
def execReadStation (_tag : Octet) (s : State) : Host.Outcome State Fault Refusal :=
  .next <| s.transact fun s => s.respond .ok s.stationOctets

/-- RSTn asserted (R189): every block is held in its initial state, with any attempt and any transaction cut short. The
straps are not sampled yet (log 18); the commands still waiting are outside the block (log 21). -/
def State.assertReset (s : State) : State :=
  let r := State.afterReset s.station.number
  { r with station := { r.station with inReset := true }, pending := s.pending }

/-- RSTn deasserted (R165, R189): the straps are sampled, and a transaction whose CSn is asserted already is not taken. -/
def State.releaseReset (s : State) (straps : Station) (selected : Bool) : State :=
  let r := State.afterReset straps
  { r with port := { r.port with unread := selected }, pending := s.pending }

/-- POWER_ON_RESET (R165, R189): one edge of RSTn; a deassertion of an RSTn that is not asserted cannot arise (log 2). -/
def execPowerOnReset (edge : ResetEdge) (s : State) : Host.Outcome State Fault Refusal :=
  .next <|
    match edge with
    | .asserted => s.assertReset
    | .released straps selected => if s.station.inReset then s.releaseReset straps selected else s

end Sys2Proof.Machine
end

