-- ==== Sys2Proof/Machine/ChannelRequests.lean ====
section
/-! DEFINITION. The requests that act on one channel: CLAIM (R26, R27), RELEASE (R42, R43), SEND (R111, R112), JOIN (R67,
R68), LEAVE (R75). -/

namespace Sys2Proof.Machine

/-! ### CLAIM -/

/-- The checks of CLAIM before the slot is allocated, in order (R26, R176). -/
def State.claimChecks (s : State) (tag : Octet) (channel : Half) : Checks :=
  let e := s.entry (toChannel channel)
  List.append (s.longChecks tag)
    [(s.station.mode ≠ .active, .notActive),
     (!isChannel channel, .badChannel),
     (e.view = .heldLocal, .alreadyOwner),
     (e.view = .claiming || e.view = .announcing || e.view = .releasing, .busy),
     (e.subscription ≠ .none, .subscribed),
     ((FMap.lowestFree s.slots Config.slotCount).isNone, .noSlot)]

/-- An accepted CLAIM: the slot of index i is allocated (R24, R27). -/
def State.acceptClaim (s : State) (tag : Octet) (c : Channel) (i : Nat) : State :=
  ((s.putSlot i (.allocated c tag)).setEntry c ((s.entry c).toLocal .claiming s.station.number i)).enterRequest tag .claim
    (some c)

/-- CLAIM request (R26, R27). -/
def execClaimRequest (tag : Octet) (channel : Half) (s : State) : Host.Outcome State Fault Refusal :=
  .next <| s.transact fun s =>
    match firstFailing (s.claimChecks tag channel) with
    | some r => s.respond r []
    | none =>
      (s.acceptClaim tag (toChannel channel) ((FMap.lowestFree s.slots Config.slotCount).getD 0)).respond .ok []

/-! ### RELEASE -/

/-- A RELEASE request is pending on the channel (R42). -/
def State.releasePending (s : State) (c : Channel) : Bool :=
  s.port.requests.any (fun r => r.kind = .release && r.channel = some c)

/-- The checks of RELEASE, in order (R42, R176). The slot of a HELD_LOCAL view is found through its entry (R2). -/
def State.releaseChecks (s : State) (tag : Octet) (channel : Half) : Checks :=
  let c := toChannel channel
  let e := s.entry c
  List.append (s.longChecks tag)
    [(!isChannel channel, .badChannel),
     (e.view = .claiming || e.view = .announcing || (e.view = .releasing && s.releasePending c), .busy),
     (e.view ≠ .heldLocal || (s.slotOf c).isNone, .notOwner)]

/-- An accepted RELEASE (R43). -/
def State.acceptRelease (s : State) (tag : Octet) (c : Channel) : State :=
  match s.slotOf c with
  | some (i, sl) => (s.startRelease i sl (some tag)).enterRequest tag .release (some c)
  | none => s

/-- RELEASE request (R42, R43). -/
def execReleaseRequest (tag : Octet) (channel : Half) (s : State) : Host.Outcome State Fault Refusal :=
  .next <| s.transact fun s =>
    match firstFailing (s.releaseChecks tag channel) with
    | some r => s.respond r []
    | none => (s.acceptRelease tag (toChannel channel)).respond .ok []

/-! ### SEND -/

/-- The transmit sequence of the slot found through a HELD_LOCAL entry (R38). -/
def State.sendSequence (s : State) (c : Channel) : Option (Nat × Slot × Seq) :=
  (s.slotOf c).bind fun row => row.2.transmitSequence.map fun q => (row.1, row.2, q)

/-- The checks of SEND, in order (R111). -/
def State.sendChecks (s : State) (channel : Half) (length : Octet) : Checks :=
  let c := toChannel channel
  let e := s.entry c
  [(!isChannel channel, .badChannel),
   (e.view = .releasing, .releasing),
   (e.view ≠ .heldLocal || (s.sendSequence c).isNone, .notOwner),
   (length.toNat = 0 || 64 < length.toNat, .badLength),
   (s.record.transmitLimit.toNat ≤ dataEntries s.store.fifo, .txFull),
   (s.store.free = 0, .noBuffer)]

/-- An accepted SEND: buffer, DATA entry, next sequence, and the sequence answered (R112). -/
def State.acceptSend (s : State) (c : Channel) (payload : List Octet) : State :=
  match s.sendSequence c with
  | some (i, sl, q) =>
    let s₁ := s.putSlot i { sl with transmitSequence := some (q + 1) }
    State.respond
      { s₁ with store := { s₁.store with free := s₁.store.free - 1,
                                         fifo := s₁.store.fifo ++ [.data c q payload 0 false false] } }
      .ok [q]
  | none => s

/-- An incomplete request: no effect but the local frame errors counter; the station drove 0 throughout, so no response
stands (R167, R169). -/
def State.countFrameError (s : State) : State :=
  { s with port := { s.port with response := [], frameErrors := countUp s.port.frameErrors } }

/-- SEND (R111, R112). A frame with fewer payload octets than its length octet states is incomplete (R169); octets beyond
them fall in the response phase and are not read (R167). -/
def execSend (_tag : Octet) (channel : Half) (length : Octet) (payload : List Octet) (s : State) :
    Host.Outcome State Fault Refusal :=
  .next <| s.transact fun s =>
    if payload.length < length.toNat then s.countFrameError
    else
      match firstFailing (s.sendChecks channel length) with
      | some r => s.respond r []
      | none => s.acceptSend (toChannel channel) (payload.take length.toNat)

/-! ### JOIN -/

/-- The checks of JOIN before the context is allocated, in order (R67, R176). -/
def State.joinChecks (s : State) (tag : Octet) (channel : Half) : Checks :=
  let e := s.entry (toChannel channel)
  List.append (s.longChecks tag)
    [(s.station.mode ≠ .active, .notActive),
     (!isChannel channel, .badChannel),
     (e.view.isLocal, .localOwner),
     (e.subscription ≠ .none, .alreadyJoined),
     ((FMap.lowestFree s.contexts Config.contextCount).isNone, .noContext)]

/-- An accepted JOIN: the context of index i is allocated (R68). -/
def State.acceptJoin (s : State) (tag : Octet) (c : Channel) (i : Nat) : State :=
  ((s.putContext i (.allocated c (s.entry c).joinDestination tag)).setEntry c
    ((s.entry c).subscribed .joining i)).enterRequest tag .join (some c)

/-- JOIN request (R67, R68). -/
def execJoinRequest (tag : Octet) (channel : Half) (s : State) : Host.Outcome State Fault Refusal :=
  .next <| s.transact fun s =>
    match firstFailing (s.joinChecks tag channel) with
    | some r => s.respond r []
    | none =>
      (s.acceptJoin tag (toChannel channel) ((FMap.lowestFree s.contexts Config.contextCount).getD 0)).respond .ok []

/-! ### LEAVE -/

/-- The checks of LEAVE, in order (R75, R176). The context is found through its entry (R4). -/
def State.leaveChecks (s : State) (tag : Octet) (channel : Half) : Checks :=
  let c := toChannel channel
  let e := s.entry c
  List.append (s.longChecks tag)
    [(!isChannel channel, .badChannel),
     (e.subscription = .none || e.subscription = .joining || (s.contextOf c).isNone, .notJoined),
     (e.subscription = .leaving, .busy)]

/-- An accepted LEAVE (R75). -/
def State.acceptLeave (s : State) (tag : Octet) (c : Channel) : State :=
  match s.contextOf c with
  | some (i, k) => (s.startLeave i k (some tag)).enterRequest tag .leave (some c)
  | none => s

/-- LEAVE request (R75). -/
def execLeaveRequest (tag : Octet) (channel : Half) (s : State) : Host.Outcome State Fault Refusal :=
  .next <| s.transact fun s =>
    match firstFailing (s.leaveChecks tag channel) with
    | some r => s.respond r []
    | none => (s.acceptLeave tag (toChannel channel)).respond .ok []

end Sys2Proof.Machine
end

