-- ==== Sys2Proof/Machine/TableRequests.lean ====
section
/-! DEFINITION. The immediate requests on tables, filters, queues and events, ABORT, and the transactions that carry no
request: R6, R22, R97, R98, R104, R106, R128, R169, R170, R178, R186. -/

namespace Sys2Proof.Machine

/-! ### The Channel Table -/

/-- SET_ACTION (R6): the three arrival actions of one entry replaced at once. -/
def execSetAction (_tag : Octet) (channel : Half) (actions : Octet) (s : State) : Host.Outcome State Fault Refusal :=
  .next <| s.transact fun s =>
    if isChannel channel = false then s.respond .badChannel []
    else if 3 < actionGroup actions then s.respond .badField []
    else
      let c := toChannel channel
      (s.setEntry c { s.entry c with discard := actionDiscard actions, trap := actionTrap actions,
                                     group := Fin.ofNat 4 (actionGroup actions) }).respond .ok []

/-- READ_CHANNEL (R22). -/
def execReadChannel (_tag : Octet) (channel : Half) (s : State) : Host.Outcome State Fault Refusal :=
  .next <| s.transact fun s =>
    if isChannel channel then s.respond .ok (s.channelData (toChannel channel)) else s.respond .badChannel []

/-! ### The trap filters -/

/-- The checks of SET_FILTER, in order (R97). -/
def filterChecks (p : FilterParameters) : Checks :=
  [(3 < p.index.toNat, .badField),
   (!isChannel p.channelLow || !isChannel p.channelHigh, .badChannel),
   (p.channelHigh.toNat < p.channelLow.toNat, .badField),
   (62 < p.offset.toNat, .badField)]

/-- The filter that accepted parameters describe (R95, R97, R171). -/
def filterOf (p : FilterParameters) : Filter where
  enabled := p.enable.getLsbD 0
  channelLow := toChannel p.channelLow
  channelHigh := toChannel p.channelHigh
  offset := p.offset
  value := p.value
  mask := p.mask

/-- A filter written, in the canonical form: a power-on filter is not listed. -/
def State.setFilter (s : State) (k : Nat) (f : Filter) : State :=
  { s with classifier := { s.classifier with
      filters := if f = Filter.initial then FMap.erase s.classifier.filters k
                 else FMap.insert s.classifier.filters k f } }

/-- SET_FILTER (R97). -/
def execSetFilter (_tag : Octet) (p : FilterParameters) (s : State) : Host.Outcome State Fault Refusal :=
  .next <| s.transact fun s =>
    match firstFailing (filterChecks p) with
    | some r => s.respond r []
    | none => (s.setFilter p.index.toNat (filterOf p)).respond .ok []

/-- READ_FILTER (R98). -/
def execReadFilter (_tag : Octet) (index : Octet) (s : State) : Host.Outcome State Fault Refusal :=
  .next <| s.transact fun s =>
    if 3 < index.toNat then s.respond .badField []
    else s.respond .ok (s.filter (Fin.ofNat 4 index.toNat)).octets

/-! ### The receive queues -/

/-- A queue with its cells replaced by what is left after a removal; the removal of the last descriptor clears the
overflow-notified flag (R102). -/
def ReceiveQueue.left (r : ReceiveQueue) (rest : List Descriptor) : ReceiveQueue :=
  { r with cells := rest, overflowNotified := if rest.isEmpty then false else r.overflowNotified }

/-- TAKE (R104). -/
def execTake (_tag : Octet) (queue : Octet) (s : State) : Host.Outcome State Fault Refusal :=
  .next <| s.transact fun s =>
    match queueOfNumber queue with
    | none => s.respond .badField []
    | some q =>
      let r := s.store.queue q
      match r.cells with
      | [] => s.respond .empty []
      | d :: rest => ((s.setQueue q (r.left rest)).dequeued d).respond .ok (d.octets rest.length)

/-- FLUSH (R106). -/
def execFlush (_tag : Octet) (queue : Octet) (s : State) : Host.Outcome State Fault Refusal :=
  .next <| s.transact fun s =>
    match queueOfNumber queue with
    | none => s.respond .badField []
    | some q =>
      let r := s.store.queue q
      match r.cells with
      | [] => s.respond .ok (numberOctets 0)
      | d :: rest =>
        ((d :: rest).foldl State.dequeued (s.setQueue q (r.left []))).respond .ok (numberOctets (rest.length + 1))

/-! ### Peers and events -/

/-- READ_PEER (R128). -/
def execReadPeer (_tag : Octet) (station : Octet) (s : State) : Host.Outcome State Fault Refusal :=
  .next <| s.transact fun s =>
    if station.toNat = 0 ∨ 62 < station.toNat then s.respond .badField []
    else s.respond .ok (s.peerData (BitVec.ofNat 6 station.toNat))

/-- READ_EVENT (R186). -/
def execReadEvent (_tag : Octet) (s : State) : Host.Outcome State Fault Refusal :=
  .next <| s.transact fun s =>
    match s.events.records with
    | [] => s.respond .empty []
    | e :: rest => State.respond { s with events := { s.events with records := rest } } .ok e.octets

/-! ### ABORT -/

/-- ABORT of a pending CLAIM: freed in CLAIMING, too late afterwards (R39, R178). -/
def State.abortClaim (s : State) (tag : Octet) (c : Channel) : State :=
  match s.slotOf c with
  | some (i, sl) =>
    if sl.phase = .claiming then ((s.freeSlot i c none).complete tag { result := .aborted }).respond .ok []
    else s.respond .tooLate []
  | none => s.respond .tooLate []

/-- ABORT of a pending JOIN (R74, R178). -/
def State.abortJoin (s : State) (tag : Octet) (c : Channel) : State :=
  match s.contextOf c with
  | some (i, k) =>
    if k.state = .joining then ((s.freeContext i c).complete tag { result := .aborted }).respond .ok []
    else s.respond .tooLate []
  | none => s.respond .tooLate []

/-- ABORT (R178). -/
def execAbort (tag : Octet) (s : State) : Host.Outcome State Fault Refusal :=
  .next <| s.transact fun s =>
    match s.requestWith tag with
    | none => s.respond .noSuchTag []
    | some r =>
      match r.kind with
      | .claim => s.abortClaim tag (r.channel.getD 0)
      | .join => s.abortJoin tag (r.channel.getD 0)
      | .attach => ((s.complete tag { result := .aborted }).enterDetached).respond .ok []
      | .release | .leave | .withdraw => s.respond .notAbortable []

/-! ### Transactions that carry no request -/

/-- BAD_REQUEST (R170). A code octet that is a request code, with nothing after it, is an incomplete request (R169, log 16). -/
def execBadRequest (code : Octet) (s : State) : Host.Outcome State Fault Refusal :=
  .next <| s.transact fun s => if isRequestCode code then s.countFrameError else s.respond .badRequest []

/-- INCOMPLETE_REQUEST (R169): counted when at least one bit was shifted in and the frame is not complete; a transaction
with no bit is not a request; with a complete frame CSn was not deasserted in the request phase (log 16). -/
def execIncompleteRequest (octets : List Octet) (bits : Nat) (s : State) : Host.Outcome State Fault Refusal :=
  .next <| s.transact fun s =>
    if (octets ≠ [] ∨ bits ≠ 0) ∧ decodeRequest octets = .incomplete then s.countFrameError else s

end Sys2Proof.Machine
end

