-- ==== Sys2Proof/Machine/Timers.lean ====
section
/-! DEFINITION. The expiries of the nine timers (R190), each with the rule of the timer's owner, and the millisecond that
passes when no command waits (log 3 to 5). -/

namespace Sys2Proof.Machine

/-- A timer has expired: it runs, and its last millisecond has passed (R190). A timer that was restarted before its expiry
was taken has time left and does not expire (R124, log 5). -/
def expired (timer : Option Nat) : Bool := timer = some 0

/-! ### Slots -/

/-- The window of a CLAIMING slot has expired: ANNOUNCING, owing ANNOUNCE (R33). -/
def State.commitClaim (s : State) (i : Nat) (sl : Slot) : State :=
  (s.putSlot i { sl with phase := .announcing, window := none, owed := some (.fresh .announce) }).setEntry sl.channel
    ((s.entry sl.channel).toLocal .announcing s.station.number i)

/-- CLAIM_WINDOW_EXPIRY (R33). -/
def execClaimWindowExpiry (i : Fin 32) (s : State) : Host.Outcome State Fault Refusal :=
  .next <|
    match FMap.find? s.slots i.val with
    | some sl => if sl.phase = .claiming ∧ expired sl.window = true then s.commitClaim i.val sl else s
    | none => s

/-- What a resend expiry makes of the owed message: a DRAIN still owed stays, nothing or an ANNOUNCE gives way to a new
DRAIN (R47). -/
def resendOwed : Option SlotOwed → Option SlotOwed
  | none => some (.fresh .drain)
  | some o => if o.kind = .announce then some (.fresh .drain) else some o

/-- RESEND_TIMER_EXPIRY (R47). -/
def execResendTimerExpiry (i : Fin 32) (s : State) : Host.Outcome State Fault Refusal :=
  .next <|
    match FMap.find? s.slots i.val with
    | some sl =>
      if expired sl.resendTimer then
        s.putSlot i.val { sl with resendTimer := some s.responseTimeout, owed := resendOwed sl.owed }
      else s
    | none => s

/-- The forced end of a drain (R50). -/
def Slot.force (sl : Slot) : Slot :=
  { sl.closeDrain with forced := true, laggards := some (stationCount sl.awaited), awaited := 0 }

/-- DRAIN_TIMER_EXPIRY (R50). -/
def execDrainTimerExpiry (i : Fin 32) (s : State) : Host.Outcome State Fault Refusal :=
  .next <|
    match FMap.find? s.slots i.val with
    | some sl => if expired sl.drainTimer then s.putSlot i.val sl.force else s
    | none => s

/-! ### Contexts -/

/-- The response timer of a JOINING context has expired: JOIN owed again from the entry, or NO_OWNER (R15, R69). -/
def State.retryJoin (s : State) (i : Nat) (k : Context) : State :=
  if k.attemptsUsed.getD 0 < s.attemptLimit then
    s.putContext i { k with responseTimer := none, owed := some (.fresh .join (s.entry k.channel).joinDestination) }
  else (s.freeContext i k.channel).completeHeld k.tag { result := .noOwner }

/-- JOIN_RESPONSE_TIMER_EXPIRY (R69). -/
def execJoinResponseTimerExpiry (i : Fin 64) (s : State) : Host.Outcome State Fault Refusal :=
  .next <|
    match FMap.find? s.contexts i.val with
    | some k => if k.state = .joining ∧ expired k.responseTimer = true then s.retryJoin i.val k else s
    | none => s

/-- The response timer of a LEAVING context has expired: LEAVE owed again, or UNCONFIRMED (R76). -/
def State.retryLeave (s : State) (i : Nat) (k : Context) : State :=
  if k.attemptsUsed.getD 0 < s.attemptLimit then
    s.putContext i { k with responseTimer := none, owed := some (.fresh .leave (k.owner.getD 0)) }
  else (s.freeContext i k.channel).completeHeld k.tag { result := .unconfirmed }

/-- LEAVE_RESPONSE_TIMER_EXPIRY (R76). -/
def execLeaveResponseTimerExpiry (i : Fin 64) (s : State) : Host.Outcome State Fault Refusal :=
  .next <|
    match FMap.find? s.contexts i.val with
    | some k => if k.state = .leaving ∧ expired k.responseTimer = true then s.retryLeave i.val k else s
    | none => s

/-- The release taken as implied: the context freed, the view FREE, CHANNEL_RELEASED with reason IMPLIED (R63). -/
def State.implyRelease (s : State) (i : Nat) (k : Context) : State :=
  let s₁ := s.setEntry k.channel (s.entry k.channel).toFree
  (s₁.freeContext i k.channel).notify (.channelReleased k.channel .implied (k.owner.getD 0))

/-- DRAIN_WAIT_TIMER_EXPIRY (R63). -/
def execDrainWaitTimerExpiry (i : Fin 64) (s : State) : Host.Outcome State Fault Refusal :=
  .next <|
    match FMap.find? s.contexts i.val with
    | some k => if k.state = .draining ∧ expired k.drainWait = true then s.implyRelease i.val k else s
    | none => s

/-! ### Peers and the station -/

/-- PEER_TIMER_EXPIRY (R124): an ABSENT entry has no timer, and one restarted by a message taken first does not expire. -/
def execPeerTimerExpiry (x : Station) (s : State) : Host.Outcome State Fault Refusal :=
  .next <|
    match FMap.find? s.peers x.toNat with
    | some p => if expired (some p.timer) then s.depart x .timeout p.epoch else s
    | none => s

/-- PRESENCE_TIMER_EXPIRY (R125): the timer restarts, and a BEACON is owed; one already owed stays as it is. -/
def execPresenceTimerExpiry (s : State) : Host.Outcome State Fault Refusal :=
  .next <|
    if expired s.station.presence then
      { s with station := { s.station with presence := some s.presenceTime,
                                           beacon := s.station.beacon.or (some ⟨false, 0, false⟩) } }
    else s

/-- The listen period ends: ACTIVE, and the ATTACH completes OK (R156). -/
def State.endListening (s : State) : State :=
  State.completeHeld { s with station := { s.station with mode := .active, listen := none } } (s.stationRequest .attach)
    { result := .ok }

/-- LISTEN_TIMER_EXPIRY (R156). -/
def execListenTimerExpiry (s : State) : Host.Outcome State Fault Refusal :=
  .next <| if s.station.mode = .listening ∧ expired s.station.listen = true then s.endListening else s

/-! ### The millisecond -/

/-- A timer one millisecond later (R190). -/
def elapse (timer : Option Nat) : Option Nat := timer.map fun t => t - 1

/-- The longest time since last heard that an entry shows (R117). -/
def heardLimit : Nat := 38250

/-- A slot one millisecond later. -/
def Slot.elapsed (sl : Slot) : Slot :=
  { sl with window := elapse sl.window, drainTimer := elapse sl.drainTimer, resendTimer := elapse sl.resendTimer }

/-- A context one millisecond later. -/
def Context.elapsed (k : Context) : Context :=
  { k with responseTimer := elapse k.responseTimer, drainWait := elapse k.drainWait }

/-- A PRESENT peer's entry one millisecond later (R117). -/
def Peer.elapsed (p : Peer) : Peer := { p with timer := p.timer - 1, sinceHeard := min heardLimit (p.sinceHeard + 1) }

/-- Every running timer one millisecond later (R190). -/
def State.elapsed (s : State) : State :=
  { s with
    slots := FMap.mapValues Slot.elapsed s.slots,
    contexts := FMap.mapValues Context.elapsed s.contexts,
    peers := FMap.mapValues Peer.elapsed s.peers,
    station := { s.station with presence := elapse s.station.presence, listen := elapse s.station.listen } }

/-- An expiry that is due, if its timer has no time left. -/
def dueAt (timer : Option Nat) (c : Instr) : List Instr := if expired timer then [c] else []

/-- The expiries due in one slot. -/
def dueSlot (row : Nat × Slot) : List Instr :=
  let i := Fin.ofNat 32 row.1
  dueAt row.2.window (.claimWindowExpiry i) ++ dueAt row.2.drainTimer (.drainTimerExpiry i) ++
    dueAt row.2.resendTimer (.resendTimerExpiry i)

/-- The expiries due in one context. -/
def dueContext (row : Nat × Context) : List Instr :=
  let i := Fin.ofNat 64 row.1
  dueAt row.2.responseTimer
      (if row.2.state = .joining then .joinResponseTimerExpiry i else .leaveResponseTimerExpiry i) ++
    dueAt row.2.drainWait (.drainWaitTimerExpiry i)

/-- The expiry due in one peer's entry. -/
def duePeer (row : Nat × Peer) : List Instr := dueAt (some row.2.timer) (.peerTimerExpiry (BitVec.ofNat 6 row.1))

/-- The expiries due, in the order the model takes them: slots, contexts, peers, each by number, then the presence timer
and the listen timer. DESIGN CHOICE (log 4). -/
def State.due (s : State) : List Instr :=
  s.slots.flatMap dueSlot ++ s.contexts.flatMap dueContext ++ s.peers.flatMap duePeer ++
    dueAt s.station.presence .presenceTimerExpiry ++ dueAt s.station.listen .listenTimerExpiry

/-- One millisecond in which no command waits: the timers run, and the expiries that are due wait as commands (R190,
log 3). -/
def State.tick (s : State) : State := { s.elapsed with pending := s.elapsed.due }

end Sys2Proof.Machine
end

