-- ==== Sys2Proof/Machine/Transmit.lean ====
section
/-! DEFINITION. The station's own transmissions: the scheduler and the start of an attempt (R137, R145, R147), and the
three ends of an attempt (R138 to R142), with the rules of the message's owner at its echo (R139) and at its
abandonment (R140). -/

namespace Sys2Proof.Machine

/-! ### The scheduler -/

/-- The kind and body of a slot's owed message (R28, R33, R46, R51). -/
def SlotMessage.body : SlotMessage → Body
  | .claim => .claim
  | .announce => .announce
  | .drain => .drain
  | .release => .release

/-- The kind and body of a context's owed message (R69, R76, R60). -/
def ContextMessage.body : ContextMessage → Body
  | .join => .join
  | .leave => .leave
  | .drained => .drained

/-- The kind and body of a reply (R145). -/
def ReplyKind.body : ReplyKind → Body
  | .hold => .hold
  | .admission next => .admission next
  | .deny reason => .deny reason
  | .left => .left
  | .cleanupLeave => .leave

/-- A message of this station: its own number as source and its current epoch (R133); the departing flag is the one flag
driven (R132). -/
def State.ownMessage (s : State) (departing : Bool) (c : Channel) (destination : Station) (b : Body) : Message :=
  ⟨⟨s.station.number, if departing then 1 else 0, s.station.epoch, c, destination⟩, b⟩

/-- The lowest-numbered slot that owes a message, with its message (R24, R147). -/
def owingSlot : FMap Slot → Option (Nat × Slot × SlotOwed)
  | [] => none
  | (i, sl) :: rest =>
    match sl.owed with
    | some o => some (i, sl, o)
    | none => owingSlot rest

/-- The lowest-numbered context that owes a message, with its message (R66, R147). -/
def owingContext : FMap Context → Option (Nat × Context × ContextOwed)
  | [] => none
  | (i, k) :: rest =>
    match k.owed with
    | some o => some (i, k, o)
    | none => owingContext rest

/-- The attempt of the reply queue's head (R145). -/
def State.offerReply (s : State) : Option Attempt :=
  s.span.replies.head?.map fun r => ⟨.reply, s.ownMessage false r.channel r.destination r.kind.body⟩

/-- The attempt of the lowest-numbered slot that owes a message (R28, R33, R46, R51). -/
def State.offerSlot (s : State) : Option Attempt :=
  (owingSlot s.slots).map fun row => ⟨.slot row.1, s.ownMessage false row.2.1.channel 0 row.2.2.kind.body⟩

/-- The attempt of the lowest-numbered context that owes a message (R69, R76, R60). -/
def State.offerContext (s : State) : Option Attempt :=
  (owingContext s.contexts).map fun row =>
    ⟨.context row.1, s.ownMessage false row.2.1.channel row.2.2.destination row.2.2.kind.body⟩

/-- The attempt of the owed BEACON, with the own presence interval (R126, R159). -/
def State.offerBeacon (s : State) : Option Attempt :=
  s.station.beacon.map fun b => ⟨.beacon, s.ownMessage b.departing 0 0 (.beacon s.record.presenceInterval)⟩

/-- The attempt of the transmit FIFO's head, when it is a DATA entry (R108). -/
def State.offerData (s : State) : Option Attempt :=
  match s.store.fifo with
  | .data c q payload .. :: _ => some ⟨.fifo, s.ownMessage false c 0 (.data q payload)⟩
  | _ => none

/-- The scheduler's pick: the first of the five sources that has a message (R147). -/
def State.pick (s : State) : Option Attempt :=
  s.offerReply.or (s.offerSlot.or (s.offerContext.or (s.offerBeacon.or s.offerData)))

/-! ### The mark of a message on the wire (R142) -/

/-- The head reply's mark. -/
def markReplies (wire : Bool) : List Reply → List Reply
  | r :: rest => { r with onWire := wire } :: rest
  | [] => []

/-- The head DATA entry's mark. -/
def markFifo (wire : Bool) : List FifoEntry → List FifoEntry
  | .data c q payload attempts _ purged :: rest => .data c q payload attempts wire purged :: rest
  | fifo => fifo

/-- The mark of the message a sender owes: set when its attempt begins, clear when an attempt leaves it owed. -/
def State.mark (s : State) (sender : Sender) (wire : Bool) : State :=
  match sender with
  | .reply => { s with span := { s.span with replies := markReplies wire s.span.replies } }
  | .slot i =>
    match FMap.find? s.slots i with
    | some sl => s.putSlot i { sl with owed := sl.owed.map fun o => { o with onWire := wire } }
    | none => s
  | .context i =>
    match FMap.find? s.contexts i with
    | some k => s.putContext i { k with owed := k.owed.map fun o => { o with onWire := wire } }
    | none => s
  | .beacon => { s with station := { s.station with beacon := s.station.beacon.map fun b => { b with onWire := wire } } }
  | .fifo => s.setFifo (markFifo wire s.store.fifo)

/-- The attempt in progress replaced: one begins, or the one there was has ended (R137). -/
def State.setAttempt (s : State) (a : Option Attempt) : State := { s with span := { s.span with attempt := a } }

/-- The consecutive-failure count replaced (R141). -/
def State.setFailures (s : State) (n : Nat) : State := { s with span := { s.span with failures := n } }

/-- TRANSMIT_ATTEMPT (R137, R147): at an idle span, with no attempt of the station in progress, a station whose
transmitter offers starts the attempt of the scheduler's pick. -/
def execTransmitAttempt (s : State) : Host.Outcome State Fault Refusal :=
  .next <|
    if s.transmitterOn = true ∧ s.span.attempt = none then
      match s.pick with
      | some a => (s.mark a.sender true).setAttempt (some a)
      | none => s
    else s

/-! ### The sender's messages -/

/-- The slot whose picked message still stands, with it (R142). -/
def State.standingSlot (s : State) (i : Nat) : Option (Slot × SlotOwed) :=
  (FMap.find? s.slots i).bind fun sl => sl.owed.bind fun o => if o.onWire then some (sl, o) else none

/-- The context whose picked message still stands, with it (R142). -/
def State.standingContext (s : State) (i : Nat) : Option (Context × ContextOwed) :=
  (FMap.find? s.contexts i).bind fun k => k.owed.bind fun o => if o.onWire then some (k, o) else none

/-- The owed BEACON, if it is the one picked (R142). -/
def State.standingBeacon (s : State) : Option OwedBeacon :=
  s.station.beacon.bind fun b => if b.onWire then some b else none

/-- The head reply, if it is on the wire, and the replies behind it. -/
def State.wireReply (s : State) : Option (Reply × List Reply) :=
  match s.span.replies with
  | r :: rest => if r.onWire then some (r, rest) else none
  | [] => none

/-- The reply queue replaced. -/
def State.setReplies (s : State) (replies : List Reply) : State := { s with span := { s.span with replies := replies } }

/-- The owed BEACON replaced. -/
def State.setBeacon (s : State) (b : Option OwedBeacon) : State := { s with station := { s.station with beacon := b } }

/-! ### Lost contention -/

/-- An attempt that lost contention: the message stays where it was, not on the wire (R138). A reply or a DATA entry that
was overtaken leaves, because its attempt has ended (R17, R110, R146, log 10). -/
def State.loseContention (s : State) (sender : Sender) : State :=
  match sender with
  | .reply =>
    match s.wireReply with
    | some (r, rest) => if r.overtaken then s.setReplies rest else s.mark .reply false
    | none => s
  | .fifo =>
    match s.store.fifo with
    | .data _ _ _ _ true true :: _ => s.dropHeadData
    | _ => s.mark .fifo false
  | .slot i => s.mark (.slot i) false
  | .context i => s.mark (.context i) false
  | .beacon => s.mark .beacon false

/-- LOST_CONTENTION (R131, R138). -/
def execLostContention (s : State) : Host.Outcome State Fault Refusal :=
  .next <|
    match s.span.attempt with
    | some a => (s.setAttempt none).loseContention a.sender
    | none => s

/-! ### The echo -/

/-- The echo of the claim's ANNOUNCE: HELD with transmit sequence 0, the CLAIM completes OK (R36); in WITHDRAWING the slot
is released in the same step (R40). -/
def State.winClaim (s : State) (i : Nat) (sl : Slot) : State :=
  let held := { sl with phase := .held, owed := none, transmitSequence := some 0, tag := none }
  let s₁ := ((s.putSlot i held).setEntry sl.channel
    ((s.entry sl.channel).toLocal .heldLocal s.station.number i)).completeHeld sl.tag { result := .ok }
  if s.station.mode = .withdrawing then s₁.startRelease i held none else s₁

/-- A slot's rule at the echo of its message (R139). -/
def State.echoSlot (s : State) (i : Nat) (sl : Slot) : SlotMessage → State
  | .claim => s.putSlot i { sl with owed := none, window := some s.claimWindow }
  | .announce => if sl.phase = .announcing then s.winClaim i sl else s.putSlot i { sl with owed := none }
  | .drain => s.putSlot i { sl with owed := none }
  | .release => s.endRelease i sl false

/-- A JOIN or LEAVE attempt that has ended, echoed or abandoned: attempts used increases, nothing is owed, and the
response timer starts (R69, R76). -/
def State.awaitResponse (s : State) (i : Nat) (k : Context) : State :=
  s.putContext i { k with owed := none, attemptsUsed := k.attemptsUsed.map (· + 1),
                          responseTimer := some s.responseTimeout }

/-- A context's rule at the echo of its message (R139). -/
def State.echoContext (s : State) (i : Nat) (k : Context) : ContextMessage → State
  | .join => s.awaitResponse i k
  | .leave => s.awaitResponse i k
  | .drained => s.putContext i { k with owed := none, drainedSent := true }

/-- The end of a withdrawal: the WITHDRAW completes OK and the station enters DETACHED (R160). -/
def State.endWithdrawal (s : State) : State :=
  (s.completeHeld (s.stationRequest .withdraw) { result := .ok }).enterDetached

/-- A BEACON that has ended, echoed or abandoned (R126, R160). -/
def State.endBeacon (s : State) (b : OwedBeacon) : State := if b.departing then s.endWithdrawal else s.setBeacon none

/-- The echo handed to the message's owner, if the instance that was picked still stands; a reply or a DATA entry on the
wire leaves in either case (R139, R142). -/
def State.echoTo (s : State) (sender : Sender) : State :=
  match sender with
  | .reply =>
    match s.wireReply with
    | some (_, rest) => s.setReplies rest
    | none => s
  | .slot i =>
    match s.standingSlot i with
    | some (sl, o) => s.echoSlot i sl o.kind
    | none => s
  | .context i =>
    match s.standingContext i with
    | some (k, o) => s.echoContext i k o.kind
    | none => s
  | .beacon =>
    match s.standingBeacon with
    | some b => s.endBeacon b
    | none => s
  | .fifo =>
    match s.store.fifo with
    | .data _ _ _ _ true _ :: _ => s.dropHeadData
    | _ => s

/-- ECHO (R137, R139, R141). -/
def execEcho (s : State) : Host.Outcome State Fault Refusal :=
  .next <|
    match s.span.attempt with
    | some a => ((s.setAttempt none).setFailures 0).echoTo a.sender
    | none => s

/-! ### The failure -/

/-- A claim that fails because its CLAIM or ANNOUNCE is abandoned (R29, R37). -/
def State.failClaim (s : State) (i : Nat) (sl : Slot) : State :=
  (s.freeSlot i sl.channel none).completeHeld sl.tag { result := .sendFailed }

/-- A slot's rule at the abandonment of its message (R140). -/
def State.abandonSlot (s : State) (i : Nat) (sl : Slot) : SlotMessage → State
  | .claim => s.failClaim i sl
  | .announce => if sl.phase = .announcing then s.failClaim i sl else s.putSlot i { sl with owed := none }
  | .drain => s.putSlot i { sl with owed := none }
  | .release => s.endRelease i sl true

/-- A context's rule at the abandonment of its message (R140). -/
def State.abandonContext (s : State) (i : Nat) (k : Context) : ContextMessage → State
  | .join => s.awaitResponse i k
  | .leave => s.awaitResponse i k
  | .drained => s.putContext i { k with owed := none }

/-- A failed attempt of a slot's message (R138, R140). -/
def State.failSlot (s : State) (i : Nat) (sl : Slot) (o : SlotOwed) : State :=
  if s.attemptLimit ≤ o.attempts + 1 then s.abandonSlot i sl o.kind
  else s.putSlot i { sl with owed := some { o with attempts := o.attempts + 1, onWire := false } }

/-- A failed attempt of a context's message (R138, R140). -/
def State.failContext (s : State) (i : Nat) (k : Context) (o : ContextOwed) : State :=
  if s.attemptLimit ≤ o.attempts + 1 then s.abandonContext i k o.kind
  else s.putContext i { k with owed := some { o with attempts := o.attempts + 1, onWire := false } }

/-- A failed attempt of the BEACON (R126, R160). -/
def State.failBeacon (s : State) (b : OwedBeacon) : State :=
  if s.attemptLimit ≤ b.attempts + 1 then s.endBeacon b
  else s.setBeacon (some { b with attempts := b.attempts + 1, onWire := false })

/-- The attempt limit of a reply: 1 for a cleanup LEAVE, the startup record's for every other (R79, R145). -/
def State.replyLimit (s : State) (k : ReplyKind) : Nat := if k = .cleanupLeave then 1 else s.attemptLimit

/-- A failed attempt of the head reply: it leaves when overtaken or at its limit (R145, R146). -/
def State.failReply (s : State) (r : Reply) (rest : List Reply) : State :=
  if r.overtaken = true ∨ s.replyLimit r.kind ≤ r.attempts + 1 then s.setReplies rest
  else s.setReplies ({ r with attempts := r.attempts + 1, onWire := false } :: rest)

/-- One more data send failure (R109). -/
def State.countSendFailure (s : State) : State :=
  { s with store := { s.store with sendFailures := countUp s.store.sendFailures } }

/-- A failed attempt of the FIFO's head DATA entry: left by a purge it leaves uncounted (R110), at its limit it leaves and
is counted (R109), else it stays with one more attempt. -/
def State.failData (s : State) : State :=
  match s.store.fifo with
  | .data c q payload attempts true purged :: rest =>
    if purged then s.dropHeadData
    else if s.attemptLimit ≤ attempts + 1 then s.countSendFailure.dropHeadData
    else s.setFifo (.data c q payload (attempts + 1) false false :: rest)
  | _ => s

/-- The failure handed to the message's owner, if the instance that was picked still stands (R138, R140, R142). -/
def State.failTo (s : State) (sender : Sender) : State :=
  match sender with
  | .reply =>
    match s.wireReply with
    | some (r, rest) => s.failReply r rest
    | none => s
  | .slot i =>
    match s.standingSlot i with
    | some (sl, o) => s.failSlot i sl o
    | none => s
  | .context i =>
    match s.standingContext i with
    | some (k, o) => s.failContext i k o
    | none => s
  | .beacon =>
    match s.standingBeacon with
    | some b => s.failBeacon b
    | none => s
  | .fifo => s.failData

/-- The 32nd consecutive failure: MUTED entry, if the station still transmits after the abandonment (R141). -/
def State.muteOnFailures (s : State) : State :=
  if s.span.failures = Config.failureLimit ∧ s.transmitterOn = true then s.enterMuted .spanFailures else s

/-- FAILED_ATTEMPT (R137, R138, R140, R141): an echo mismatch and a check error have the same effect. -/
def execFailedAttempt (_cause : AttemptFailure) (s : State) : Host.Outcome State Fault Refusal :=
  .next <|
    match s.span.attempt with
    | some a =>
      (((s.setAttempt none).setFailures (countFailure s.span.failures)).failTo a.sender).muteOnFailures
    | none => s

end Sys2Proof.Machine
end

