-- ==== Sys2Proof/Machine/Dispatch.lean ====
section
/-! DEFINITION. The command's effect on everything but the queue, one arm for each command. -/

namespace Sys2Proof.Machine

def exec (i : Instr) (s : State) : Host.Outcome State Fault Refusal :=
  match i with
  | .loadStartup tag fields => Sys2Proof.Machine.execLoadStartup tag fields s
  | .attach tag => Sys2Proof.Machine.execAttach tag s
  | .withdraw tag => Sys2Proof.Machine.execWithdraw tag s
  | .restart tag => Sys2Proof.Machine.execRestart tag s
  | .readStation tag => Sys2Proof.Machine.execReadStation tag s
  | .claimRequest tag channel => Sys2Proof.Machine.execClaimRequest tag channel s
  | .releaseRequest tag channel => Sys2Proof.Machine.execReleaseRequest tag channel s
  | .send tag channel length payload => Sys2Proof.Machine.execSend tag channel length payload s
  | .joinRequest tag channel => Sys2Proof.Machine.execJoinRequest tag channel s
  | .leaveRequest tag channel => Sys2Proof.Machine.execLeaveRequest tag channel s
  | .setAction tag channel actions => Sys2Proof.Machine.execSetAction tag channel actions s
  | .readChannel tag channel => Sys2Proof.Machine.execReadChannel tag channel s
  | .setFilter tag parameters => Sys2Proof.Machine.execSetFilter tag parameters s
  | .readFilter tag index => Sys2Proof.Machine.execReadFilter tag index s
  | .take tag queue => Sys2Proof.Machine.execTake tag queue s
  | .flush tag queue => Sys2Proof.Machine.execFlush tag queue s
  | .readPeer tag station => Sys2Proof.Machine.execReadPeer tag station s
  | .readEvent tag => Sys2Proof.Machine.execReadEvent tag s
  | .abort tag => Sys2Proof.Machine.execAbort tag s
  | .badRequest code => Sys2Proof.Machine.execBadRequest code s
  | .incompleteRequest octets bits => Sys2Proof.Machine.execIncompleteRequest octets bits s
  | .powerOnReset edge => Sys2Proof.Machine.execPowerOnReset edge s
  | .transmitAttempt => Sys2Proof.Machine.execTransmitAttempt s
  | .lostContention => Sys2Proof.Machine.execLostContention s
  | .echo => Sys2Proof.Machine.execEcho s
  | .failedAttempt cause => Sys2Proof.Machine.execFailedAttempt cause s
  | .claimMessage header => Sys2Proof.Machine.execClaimMessage header s
  | .holdMessage header => Sys2Proof.Machine.execHoldMessage header s
  | .announceMessage header => Sys2Proof.Machine.execAnnounceMessage header s
  | .joinMessage header => Sys2Proof.Machine.execJoinMessage header s
  | .admitMessage header next => Sys2Proof.Machine.execAdmitMessage header next s
  | .denyMessage header reason => Sys2Proof.Machine.execDenyMessage header reason s
  | .leaveMessage header => Sys2Proof.Machine.execLeaveMessage header s
  | .leftMessage header => Sys2Proof.Machine.execLeftMessage header s
  | .drainMessage header => Sys2Proof.Machine.execDrainMessage header s
  | .drainedMessage header => Sys2Proof.Machine.execDrainedMessage header s
  | .releaseMessage header => Sys2Proof.Machine.execReleaseMessage header s
  | .dataMessage header sequence length payload => Sys2Proof.Machine.execDataMessage header sequence length payload s
  | .beaconMessage header interval => Sys2Proof.Machine.execBeaconMessage header interval s
  | .malformedMessage octets => Sys2Proof.Machine.execMalformedMessage octets s
  | .duplicateNumberEvent => Sys2Proof.Machine.execDuplicateNumberEvent s
  | .claimWindowExpiry slot => Sys2Proof.Machine.execClaimWindowExpiry slot s
  | .resendTimerExpiry slot => Sys2Proof.Machine.execResendTimerExpiry slot s
  | .drainTimerExpiry slot => Sys2Proof.Machine.execDrainTimerExpiry slot s
  | .joinResponseTimerExpiry context => Sys2Proof.Machine.execJoinResponseTimerExpiry context s
  | .leaveResponseTimerExpiry context => Sys2Proof.Machine.execLeaveResponseTimerExpiry context s
  | .drainWaitTimerExpiry context => Sys2Proof.Machine.execDrainWaitTimerExpiry context s
  | .peerTimerExpiry station => Sys2Proof.Machine.execPeerTimerExpiry station s
  | .presenceTimerExpiry => Sys2Proof.Machine.execPresenceTimerExpiry s
  | .listenTimerExpiry => Sys2Proof.Machine.execListenTimerExpiry s

end Sys2Proof.Machine
end

