-- ==== Sys2Proof/Safety.lean ====
section
/-! DEFINITION. The words the statements about the block are made of: what a reader sees of a state, which parts a
command changes, how a request ends, and the laws of the manual that every step keeps. -/

namespace Sys2Proof.Machine

/-! ### What a reader sees of a state -/

/-- The ownership slot of an index, if it is allocated (R23). -/
def State.slotAt (s : State) (i : Nat) : Option Slot := FMap.find? s.slots i

/-- The subscription context of an index, if it is allocated (R65). -/
def State.contextAt (s : State) (i : Nat) : Option Context := FMap.find? s.contexts i

/-- The Peer Table entry of a station, if it is PRESENT (R117). -/
def State.peerAt (s : State) (x : Station) : Option Peer := FMap.find? s.peers x.toNat

/-- The parts of State a command can change; the queue of waiting commands is none of them. -/
inductive Part where
  | channels
  | slots
  | contexts
  | peers
  | classifier
  | store
  | span
  | station
  | port
  | events
  deriving DecidableEq, Repr

/-- Two states agree on a part. -/
def Part.same (s t : State) : Part → Prop
  | .channels => t.channels = s.channels
  | .slots => t.slots = s.slots
  | .contexts => t.contexts = s.contexts
  | .peers => t.peers = s.peers
  | .classifier => t.classifier = s.classifier
  | .store => t.store = s.store
  | .span => t.span = s.span
  | .station => t.station = s.station
  | .port => t.port = s.port
  | .events => t.events = s.events

/-- Every part but those named is as it was, and so is the queue. -/
def ChangesOnly (parts : List Part) (s t : State) : Prop := (∀ p, p ∉ parts → p.same s t) ∧ t.pending = s.pending

/-- Every Channel Table entry but one is as it was. -/
def OtherEntries (c : Channel) (s t : State) : Prop := ∀ d, d ≠ c → t.entry d = s.entry d

/-- Every slot but one is as it was. -/
def OtherSlots (i : Nat) (s t : State) : Prop := ∀ j, j ≠ i → t.slotAt j = s.slotAt j

/-- Every context but one is as it was. -/
def OtherContexts (i : Nat) (s t : State) : Prop := ∀ j, j ≠ i → t.contextAt j = s.contextAt j

/-- Every Peer Table entry but one is as it was. -/
def OtherPeers (x : Station) (s t : State) : Prop := ∀ y, y ≠ x → t.peerAt y = s.peerAt y

/-- The local port takes requests: RSTn is deasserted, and no transaction is open that it does not take (R189). -/
def PortOpen (s : State) : Prop := s.station.inReset = false ∧ s.port.unread = false

/-- The commands that are transactions of the local port (R169 to R171). -/
def PortCommand : Instr → Prop
  | .loadStartup _ _ | .attach _ | .withdraw _ | .restart _ | .readStation _ | .claimRequest _ _ | .releaseRequest _ _
  | .send _ _ _ _ | .joinRequest _ _ | .leaveRequest _ _ | .setAction _ _ _ | .readChannel _ _ | .setFilter _ _
  | .readFilter _ _ | .take _ _ | .flush _ _ | .readPeer _ _ | .readEvent _ | .abort _ | .badRequest _
  | .incompleteRequest _ _ => True
  | _ => False

/-- Every block is in its initial state (R165), with the chapters' own initial values (R21, R25, R83, R92, R95, R116, R129,
R149, R175, R188), and the lines are as R165 and R189 say. -/
def Initial (t : State) : Prop :=
  t.station.mode = .detached ∧ t.station.epoch = 0 ∧ nextEpoch t.station.epoch = 1 ∧ t.station.startup = none ∧
  t.station.presence = none ∧ t.station.listen = none ∧ t.station.beacon = none ∧
  t.receiverOn = false ∧ t.spanDe = false ∧ t.attn = false ∧
  (∀ c, t.entry c = ⟨.free, none, none, .none, none, false, false, 0, 0⟩) ∧
  (∀ i, t.slotAt i = none) ∧ (∀ i, t.contextAt i = none) ∧ (∀ x, t.peerAt x = none) ∧
  (∀ k, t.filter k = ⟨false, 0, 0, 0, 0, 0⟩) ∧ t.classifier.stray = 0 ∧
  (∀ q, t.store.queue q = ⟨[], false, 0⟩) ∧ t.store.fifo = [] ∧ t.store.free = 256 ∧ t.store.sendFailures = 0 ∧
  t.span.replies = [] ∧ t.span.attempt = none ∧ t.span.failures = 0 ∧ t.span.malformed = 0 ∧ t.span.replyOverflows = 0 ∧
  t.span.duplicates = 0 ∧
  t.port.requests = [] ∧ t.port.frameErrors = 0 ∧ t.events.records = [] ∧ t.events.lost = 0

/-- The command answers a result octet and data, and changes nothing else. -/
def OnlyAnswers (octets : List Octet) (s t : State) : Prop := t = { s with port := { s.port with response := octets } }

/-- A 16-bit counter increased by one, up to 65535 (R166). -/
def Counted (c : Counter) : Counter := if c = 65535 then 65535 else c + 1

/-- A notification written (R184): stored with the lost-notification count, which returns to 0, while stored records and
pending requests are fewer than 64; else dropped and counted as lost, up to 255. -/
def Notified (n : Notification) (s : State) : State :=
  { s with
    events :=
      if s.events.records.length + s.port.requests.length < 64 then
        ⟨s.events.records ++ [.notification n s.events.lost], 0⟩
      else ⟨s.events.records, if s.events.lost = 255 then 255 else s.events.lost + 1⟩ }

/-- How a request held by a slot or a context ends: with no pending request nothing is written; otherwise its entry is
removed and its completion stands at the queue's tail (R177, R183). -/
def Ended (tag : Option Octet) (e : Ending) (s t : State) : Prop :=
  match tag.bind s.requestWith with
  | none => t.port = s.port ∧ t.events = s.events
  | some r =>
    t.port = { s.port with requests := s.port.requests.eraseP (fun q => q.tag = r.tag) } ∧
      t.events = { s.events with records := s.events.records ++ [e.completes r] }

/-- What the withdrawal's test leaves of the Station Controller: the departing BEACON owed when the station is
WITHDRAWING, nothing remains and it was not owed yet; else as it was (R159). -/
def WithdrawalTested (s t : State) : Prop :=
  t.station =
    if s.station.mode = .withdrawing ∧ t.nothingRemains = true ∧ s.departingOwed = false then
      { s.station with beacon := some ⟨true, 0, false⟩ }
    else s.station

/-- A peer's intact message can reach the station: its receiver is on, the header passes R134, and the source is another
station (R135). -/
def FromPeer (s : State) (h : Header) : Prop :=
  s.receiverOn = true ∧ h.valid = true ∧ h.source ≠ s.station.number

/-- A long request is taken and passes the common checks (R176). -/
def PassesCommonChecks (s : State) (tag : Octet) : Prop :=
  PortOpen s ∧ tag ≠ 0 ∧ s.requestWith tag = none ∧ s.port.requests.length < 16 ∧ s.eventSum < 64

/-- A field of the startup record, by its index, is in its range (R151). -/
def FieldInRange (r : StartupRecord) : Nat → Prop
  | 1 => r.rateClass.toNat ≤ 3
  | 2 => 1 ≤ r.presenceInterval.toNat
  | 3 => 3 ≤ r.peerMultiple.toNat ∧ r.peerMultiple.toNat ≤ 15
  | 4 => 2 ≤ r.listenMultiple.toNat ∧ r.listenMultiple.toNat ≤ 15
  | 5 => 1 ≤ r.claimWindow.toNat
  | 6 => 1 ≤ r.responseTimeout.toNat
  | 7 => 1 ≤ r.drainTimeout.toNat
  | 8 => 1 ≤ r.attemptLimit.toNat ∧ r.attemptLimit.toNat ≤ 15
  | 9 => r.limitQ0.toNat ≤ 256
  | 10 => r.limitQ1.toNat ≤ 256
  | 11 => r.limitQ2.toNat ≤ 256
  | 12 => r.limitQ3.toNat ≤ 256
  | 13 => r.limitQM.toNat ≤ 256
  | 14 => 1 ≤ r.transmitLimit.toNat ∧ r.transmitLimit.toNat ≤ 32
  | 15 => r.attentionMask.toNat ≤ 31
  | _ => True

/-- The command that carries an intact message of a kind (spec/opcode_table.json, the thirteen message rows). -/
def messageCommand (h : Header) : Body → Instr
  | .claim => .claimMessage h
  | .hold => .holdMessage h
  | .announce => .announceMessage h
  | .join => .joinMessage h
  | .admission next => .admitMessage h next
  | .deny reason => .denyMessage h reason.code
  | .leave => .leaveMessage h
  | .left => .leftMessage h
  | .drain => .drainMessage h
  | .drained => .drainedMessage h
  | .release => .releaseMessage h
  | .data sequence payload => .dataMessage h sequence (BitVec.ofNat 8 payload.length) payload
  | .beacon interval => .beaconMessage h interval

/-- A body that an intact message can have: a DATA payload is 1 to 64 octets (R134). -/
def IntactBody : Body → Prop
  | .data _ payload => 1 ≤ payload.length ∧ payload.length ≤ 64
  | _ => True

/-- A trap filter matches a cell: enabled, channel in range, payload long enough, and every bit of the mask equal in the
two payload octets and the value (R96). -/
def FilterMatches (f : Filter) (c : Channel) (payload : List Octet) : Prop :=
  f.enabled = true ∧ f.channelLow.toNat ≤ c.toNat ∧ c.toNat ≤ f.channelHigh.toNat ∧
    f.offset.toNat + 2 ≤ payload.length ∧
    ∀ b, b < 8 →
      (f.mask.getLsbD (b + 8) = true →
        (payload.getD f.offset.toNat 0).getLsbD b = f.value.getLsbD (b + 8)) ∧
      (f.mask.getLsbD b = true → (payload.getD (f.offset.toNat + 1) 0).getLsbD b = f.value.getLsbD b)

/-- The lowest-numbered filter that matches a cell (R90). -/
def LowestMatch (s : State) (c : Channel) (payload : List Octet) (k : Fin 4) : Prop :=
  FilterMatches (s.filter k) c payload ∧ ∀ j, j < k → ¬ FilterMatches (s.filter j) c payload

/-- No filter matches a cell. -/
def NoMatch (s : State) (c : Channel) (payload : List Octet) : Prop := ∀ k, ¬ FilterMatches (s.filter k) c payload

/-- A receive queue's limit, by the field of the startup record (R151). -/
def LimitOf (r : StartupRecord) : QueueName → Nat
  | .q0 => r.limitQ0.toNat
  | .q1 => r.limitQ1.toNat
  | .q2 => r.limitQ2.toNat
  | .q3 => r.limitQ3.toNat
  | .qm => r.limitQM.toNat

/-- The delivery queue of a delivery group (R91). -/
def DeliveryQueue (g : Fin 4) : QueueName :=
  match g with
  | 0 => .q0
  | 1 => .q1
  | 2 => .q2
  | 3 => .q3

/-- A cell offered to a receive queue: enqueued with a buffer when one is free and the queue is below its limit (R93);
otherwise dropped and counted, with the flag set and a notification when the flag was clear (R94). -/
def Offered (q : QueueName) (d : Descriptor) (s t : State) : Prop :=
  (∀ q', q' ≠ q → t.store.queue q' = s.store.queue q') ∧ t.store.fifo = s.store.fifo ∧
    t.store.sendFailures = s.store.sendFailures ∧
    if 0 < s.store.free ∧ (s.store.queue q).cells.length < LimitOf s.record q then
      t.store.queue q = { s.store.queue q with cells := (s.store.queue q).cells ++ [d] } ∧
        t.store.free = s.store.free - 1 ∧
        t.entry d.channel = { s.entry d.channel with queued := (s.entry d.channel).queued + 1 } ∧
        OtherEntries d.channel s t ∧ ChangesOnly [.store, .channels] s t
    else
      t.store.queue q =
          { s.store.queue q with drops := Counted (s.store.queue q).drops, overflowNotified := true } ∧
        t.store.free = s.store.free ∧
        t.events =
          (if (s.store.queue q).overflowNotified then s.events
           else (Notified (.queueOverflow q d.channel d.source (Counted (s.store.queue q).drops)) s).events) ∧
        ChangesOnly [.store, .events] s t

/-- The Span Interface after a reply is added (R144): unchanged in a state that takes none and when an alike reply not
marked overtaken waits; else the reply stands at the tail, or is counted as an overflow when 32 wait. -/
def SpanAfterReply (s : State) (kind : ReplyKind) (c : Channel) (x : Station) : SpanInterface :=
  if s.station.mode = .detached ∨ s.station.mode = .muted .spanFailures ∨ s.station.mode = .muted .duplicateNumber then
    s.span
  else if s.span.replies.any (fun r => !r.overtaken && r.kind.alike kind && r.channel = c && r.destination = x) then
    s.span
  else if s.span.replies.length < 32 then
    { s.span with replies := s.span.replies ++ [⟨kind, c, x, 0, false, false⟩] }
  else { s.span with replyOverflows := if s.span.replyOverflows = 65535 then 65535 else s.span.replyOverflows + 1 }

/-- The reply queue without a channel's replies that show a holding; one on the wire stays, marked overtaken (R17, R51,
R146). -/
def RepliesPurged (c : Channel) (replies : List Reply) : List Reply :=
  replies.filterMap fun r =>
    if r.channel = c ∧ r.kind.showsHolding = true then if r.onWire then some { r with overtaken := true } else none
    else some r

/-- The transmit FIFO without a lost channel's DATA entries and marker; a DATA entry on the wire stays (R17). -/
def FifoPurged (c : Channel) (fifo : List FifoEntry) : List FifoEntry :=
  fifo.filterMap fun e =>
    match e with
    | .data d q p a w m => if d = c then if w then some (.data d q p a w true) else none else some (.data d q p a w m)
    | .marker d => if d = c then none else some (.marker d)

/-- The drain snapshot of a slot (R45): the awaited set becomes a copy of the subscriber set; with nobody to wait for the
slot owes RELEASE, else DRAIN with both timers started. -/
def SnapshotOf (s : State) (sl : Slot) : Slot :=
  if sl.subscribers = 0 then
    { sl with awaited := 0, drainTimer := none, resendTimer := none, owed := some ⟨.release, 0, false⟩ }
  else
    { sl with awaited := sl.subscribers, drainTimer := some (10 * s.record.drainTimeout.toNat),
              resendTimer := some s.record.responseTimeout.toNat, owed := some ⟨.drain, 0, false⟩ }

/-- A slot's channel has a drain marker among those that reached the FIFO's head (R45). -/
def Consumed (markers : List Channel) (s : State) (i : Nat) : Prop := ∃ d ∈ markers, (s.entry d).slotIndex = some i

/-- A slot that a station has left: out of the subscriber set and of the awaited set; when that empties the awaited set,
the timers stop and RELEASE is owed (R48, R49, R54, R55). -/
def SlotLeftBy (x : Station) (sl : Slot) : Slot :=
  if hasStation sl.awaited x = false then { sl with subscribers := removeStation sl.subscribers x }
  else if removeStation sl.awaited x = 0 then
    { sl with subscribers := removeStation sl.subscribers x, awaited := 0, drainTimer := none, resendTimer := none,
              owed := some ⟨.release, 0, false⟩ }
  else { sl with subscribers := removeStation sl.subscribers x, awaited := removeStation sl.awaited x }

/-- A context whose owner is a departed station (R81). -/
def OrphanOf (x : Station) (k : Context) : Prop := k.state ≠ .joining ∧ k.owner = some x

/-- What the orphaning of one context writes (R81): CHANNEL_ORPHANED, and then the OWNER_LOST completion of a pending LEAVE,
whose request is removed. -/
def OrphanWrites (x : Station) (s : State) (k : Context) : State :=
  let u := Notified (.channelOrphaned k.channel .ownerDeparted x) s
  match k.tag.bind u.requestWith with
  | none => u
  | some r =>
    { u with
      port := { u.port with requests := u.port.requests.eraseP (fun q => q.tag = r.tag) },
      events := { u.events with records := u.events.records ++
        [.completion ⟨r.tag, r.kind, .ownerLost, r.channel, some x, none, false⟩] } }

/-- The departure of a peer (R123): its entry ABSENT; PEER_LOST first of the records written; its HELD_REMOTE views FREE
(R19); out of every slot's sets (R55); its contexts freed in ascending channel number, each with its records, a JOIN
addressed to it and not on the wire readdressed (R81). -/
def Departed (x : Station) (reason : LostReason) (epoch : Octet) (s t : State) : Prop :=
  t.peerAt x = none ∧ OtherPeers x s t ∧
  (∀ i, t.slotAt i = (s.slotAt i).map (SlotLeftBy x)) ∧
  (∀ i, s.contextAt i = none → t.contextAt i = none) ∧
  (∀ i k, s.contextAt i = some k →
    (OrphanOf x k → t.contextAt i = none) ∧
    (k.state ≠ .joining → k.owner ≠ some x → t.contextAt i = some k) ∧
    (k.state = .joining →
      t.contextAt i = some { k with owed := k.owed.map fun o =>
        if o.destination = x ∧ o.onWire = false then { o with destination := 0 } else o })) ∧
  (∀ c, (((s.entry c).view = .heldRemote ∧ (s.entry c).owner = some x →
            (t.entry c).view = .free ∧ (t.entry c).owner = none ∧ (t.entry c).slotIndex = none) ∧
          (¬ ((s.entry c).view = .heldRemote ∧ (s.entry c).owner = some x) →
            (t.entry c).view = (s.entry c).view ∧ (t.entry c).owner = (s.entry c).owner ∧
              (t.entry c).slotIndex = (s.entry c).slotIndex)) ∧
        ((∃ i k, s.contextAt i = some k ∧ OrphanOf x k ∧ k.channel = c) →
            (t.entry c).subscription = .none ∧ (t.entry c).contextIndex = none) ∧
        ((¬ ∃ i k, s.contextAt i = some k ∧ OrphanOf x k ∧ k.channel = c) →
            (t.entry c).subscription = (s.entry c).subscription ∧
              (t.entry c).contextIndex = (s.entry c).contextIndex) ∧
        (t.entry c).discard = (s.entry c).discard ∧ (t.entry c).trap = (s.entry c).trap ∧
        (t.entry c).group = (s.entry c).group ∧ (t.entry c).queued = (s.entry c).queued) ∧
  (∃ l : List (Nat × Context), (l.map Prod.fst).Nodup ∧
    (∀ i k, (i, k) ∈ l ↔ s.contextAt i = some k ∧ OrphanOf x k) ∧
    l.Pairwise (fun a b => a.2.channel.toNat ≤ b.2.channel.toNat) ∧
    t.events = (l.foldl (fun u row => OrphanWrites x u row.2) (Notified (.peerLost x reason epoch) s)).events ∧
    t.port = (l.foldl (fun u row => OrphanWrites x u row.2) (Notified (.peerLost x reason epoch) s)).port) ∧
  ((∀ i k, s.contextAt i = some k → ¬ OrphanOf x k) → t.station = s.station) ∧
  ((∃ i k, s.contextAt i = some k ∧ OrphanOf x k) → WithdrawalTested s t) ∧
  ChangesOnly [.peers, .slots, .contexts, .channels, .station, .port, .events] s t

/-- The Peer Table's entry of a message's source after an arrival (R119). -/
def ArrivedEntry (s : State) (h : Header) (interval : Option Octet) : Peer :=
  ⟨h.epoch, interval, 10 * (interval.getD s.record.presenceInterval).toNat * s.record.peerMultiple.toNat, 0⟩

/-- MUTED entry (R162): everything that depends on being heard is given up, the completions are written in ascending
channel number and then the station kind's, and then the MUTED notification. -/
def Muted (reason : MuteReason) (s t : State) : Prop :=
  t.station = { s.station with mode := .muted reason, presence := none, listen := none, beacon := none } ∧
  (∀ i, t.slotAt i = none) ∧ (∀ i, t.contextAt i = none) ∧
  (∀ c, t.entry c =
    if (s.entry c).view = .free ∨ (s.entry c).view = .heldRemote then
      { s.entry c with subscription := .none, contextIndex := none }
    else
      { s.entry c with view := .free, owner := none, slotIndex := none, subscription := .none, contextIndex := none }) ∧
  t.store = { s.store with free := s.store.free + dataEntries s.store.fifo, fifo := [] } ∧
  t.span = { s.span with replies := [] } ∧
  t.port = { s.port with requests := [] } ∧
  (∃ l : List PendingRequest, l.Perm s.port.requests ∧
    l.Pairwise (fun a b => a.mutedOrder ≤ b.mutedOrder) ∧
    t.events =
      if s.eventSum < 64 then
        ⟨s.events.records ++
            l.map (fun r => .completion ⟨r.tag, r.kind, if r.kind = .withdraw then .incomplete else .abandoned, r.channel,
              none, none, false⟩) ++ [.notification (.muted reason) s.events.lost], 0⟩
      else
        ⟨s.events.records ++
            l.map (fun r => .completion ⟨r.tag, r.kind, if r.kind = .withdraw then .incomplete else .abandoned, r.channel,
              none, none, false⟩), if s.events.lost = 255 then 255 else s.events.lost + 1⟩) ∧
  t.peers = s.peers ∧ t.classifier = s.classifier ∧ t.pending = s.pending

/-! ### The expiries of one millisecond -/

/-- A command, if a timer has no time left. -/
def IfExpired (timer : Option Nat) (c : Instr) : List Instr := if timer = some 0 then [c] else []

/-- The expiries due in one slot, in the order of log 4. -/
def SlotExpiries (row : Nat × Slot) : List Instr :=
  IfExpired row.2.window (.claimWindowExpiry (Fin.ofNat 32 row.1)) ++
    (IfExpired row.2.drainTimer (.drainTimerExpiry (Fin.ofNat 32 row.1)) ++
      IfExpired row.2.resendTimer (.resendTimerExpiry (Fin.ofNat 32 row.1)))

/-- The expiries due in one context, in the order of log 4. -/
def ContextExpiries (row : Nat × Context) : List Instr :=
  IfExpired row.2.responseTimer
      (if row.2.state = .joining then .joinResponseTimerExpiry (Fin.ofNat 64 row.1)
       else .leaveResponseTimerExpiry (Fin.ofNat 64 row.1)) ++
    IfExpired row.2.drainWait (.drainWaitTimerExpiry (Fin.ofNat 64 row.1))

/-- The expiries due, in the order of log 4: slots, contexts, peers, the presence timer, the listen timer. -/
def ExpiriesInOrder (t : State) : List Instr :=
  t.slots.flatMap SlotExpiries ++
    (t.contexts.flatMap ContextExpiries ++
      (t.peers.flatMap (fun row => IfExpired (some row.2.timer) (.peerTimerExpiry (BitVec.ofNat 6 row.1))) ++
        (IfExpired t.station.presence .presenceTimerExpiry ++ IfExpired t.station.listen .listenTimerExpiry)))

/-! ### Event records as READ_EVENT returns them (R182) -/

/-- The request code of a completion's request kind (R171, R182). -/
def KindOctet : RequestKind → Octet
  | .attach => 2
  | .withdraw => 3
  | .claim => 6
  | .release => 7
  | .join => 9
  | .leave => 10

/-- The result octet of a completion (R182). -/
def ResultOctet : CompletionResult → Octet
  | .ok => 0
  | .heldByOther => 1
  | .lostContest => 2
  | .sendFailed => 3
  | .aborted => 4
  | .abandoned => 5
  | .forced => 6
  | .ownershipLost => 7
  | .denied => 8
  | .noOwner => 9
  | .unconfirmed => 10
  | .ownerLost => 11
  | .duplicate => 12
  | .incomplete => 13

/-- The presence octet of a completion (R182). -/
def PresenceOctet (r : Completion) : Octet :=
  (if r.channel.isSome then 0x01 else 0) ||| (if r.station.isSome then 0x02 else 0) |||
    (if r.count.isSome then 0x04 else 0) ||| (if r.unannounced then 0x80 else 0)

/-- The octets of a notification's record (R182): kind, presence, tag and request code 0, reason, channel, station, count,
lost-notification count, an absent field as 0. -/
def NotificationOctets (lost : Octet) : Notification → List Octet
  | .peerArrived x epoch => [2, 0x06, 0, 0, 0, 0, 0, x.setWidth 8, 0, epoch, lost]
  | .peerLost x .timeout epoch => [3, 0x06, 0, 0, 1, 0, 0, x.setWidth 8, 0, epoch, lost]
  | .peerLost x .restarted epoch => [3, 0x06, 0, 0, 2, 0, 0, x.setWidth 8, 0, epoch, lost]
  | .peerLost x .departed epoch => [3, 0x06, 0, 0, 3, 0, 0, x.setWidth 8, 0, epoch, lost]
  | .channelOrphaned c .ownerChanged x => 4 :: 0x03 :: 0 :: 0 :: 1 :: halfOctets (c.setWidth 16) ++ [x.setWidth 8, 0, 0, lost]
  | .channelOrphaned c .ownerDeparted x => 4 :: 0x03 :: 0 :: 0 :: 2 :: halfOctets (c.setWidth 16) ++ [x.setWidth 8, 0, 0, lost]
  | .channelReleased c .normal x => 5 :: 0x03 :: 0 :: 0 :: 1 :: halfOctets (c.setWidth 16) ++ [x.setWidth 8, 0, 0, lost]
  | .channelReleased c .undrained x => 5 :: 0x03 :: 0 :: 0 :: 2 :: halfOctets (c.setWidth 16) ++ [x.setWidth 8, 0, 0, lost]
  | .channelReleased c .implied x => 5 :: 0x03 :: 0 :: 0 :: 3 :: halfOctets (c.setWidth 16) ++ [x.setWidth 8, 0, 0, lost]
  | .ownershipLost c x => 6 :: 0x03 :: 0 :: 0 :: 0 :: halfOctets (c.setWidth 16) ++ [x.setWidth 8, 0, 0, lost]
  | .queueOverflow q c x drops =>
    7 :: 0x07 :: 0 :: 0 :: (match q with | .q0 => 0 | .q1 => 1 | .q2 => 2 | .q3 => 3 | .qm => 4) ::
      halfOctets (c.setWidth 16) ++ x.setWidth 8 :: halfOctets drops ++ [lost]
  | .muted .spanFailures => [8, 0, 0, 0, 1, 0, 0, 0, 0, 0, lost]
  | .muted .duplicateNumber => [8, 0, 0, 0, 2, 0, 0, 0, 0, 0, lost]
  | .restarted => [9, 0, 0, 0, 0, 0, 0, 0, 0, 0, lost]

/-- The eleven octets of an event record (R182). -/
def RecordOctets : EventRecord → List Octet
  | .completion r =>
    1 :: PresenceOctet r :: r.tag :: KindOctet r.kind :: ResultOctet r.result ::
      halfOctets ((r.channel.getD 0).setWidth 16) ++ (r.station.getD 0).setWidth 8 ::
      halfOctets (BitVec.ofNat 16 (r.count.getD 0)) ++ [0]
  | .notification n lost => NotificationOctets lost n

/-! ### Laws every step keeps -/

/-- Stored records plus pending requests never exceed 64 (R180). -/
def EventLaw (s : State) : Prop := s.events.records.length + s.port.requests.length ≤ 64

/-- At most 16 pending requests, no tag 0 and no tag twice (R175). -/
def RequestLaw (s : State) : Prop :=
  s.port.requests.length ≤ 16 ∧ (∀ r ∈ s.port.requests, r.tag ≠ 0) ∧ (s.port.requests.map (fun r => r.tag)).Nodup

/-- At most 32 replies (R144). -/
def ReplyLaw (s : State) : Prop := s.span.replies.length ≤ 32

/-- The descriptors in the five receive queues. -/
def CellStore.queuedCells (c : CellStore) : Nat :=
  c.q0.cells.length + c.q1.cells.length + c.q2.cells.length + c.q3.cells.length + c.qm.cells.length

/-- Free buffers, buffers held by descriptors and buffers held by DATA entries add to 256 (R99). -/
def BufferLaw (s : State) : Prop := s.store.free + s.store.queuedCells + dataEntries s.store.fifo = 256

/-- With a startup record loaded, no receive queue exceeds its limit and the DATA entries of the FIFO do not exceed the
transmit data limit (R101, R107). -/
def LimitLaw (s : State) : Prop :=
  ∀ r, s.station.startup = some r →
    (∀ q, (s.store.queue q).cells.length ≤ LimitOf r q) ∧ dataEntries s.store.fifo ≤ r.transmitLimit.toNat

/-- The descriptors of a channel in one queue. -/
def ReceiveQueue.cellsOf (r : ReceiveQueue) (c : Channel) : Nat := r.cells.countP (fun d => d.channel = c)

/-- The descriptors of a channel in the five queues. -/
def CellStore.cellsOf (s : CellStore) (c : Channel) : Nat :=
  s.q0.cellsOf c + s.q1.cellsOf c + s.q2.cellsOf c + s.q3.cellsOf c + s.qm.cellsOf c

/-- Every entry's queued count is the number of the channel's descriptors (R7). -/
def QueuedLaw (s : State) : Prop := ∀ c, (s.entry c).queued = s.store.cellsOf c

/-- The tables are in their canonical form: 32 slots, 64 contexts, stations of six bits, 1024 channels, 4 filters. -/
def TableLaw (s : State) : Prop :=
  FMap.wf 32 s.slots = true ∧ FMap.wf 64 s.contexts = true ∧ FMap.wf 64 s.peers = true ∧
    FMap.wf 1024 s.channels = true ∧ FMap.wf 4 s.classifier.filters = true

/-- The consecutive-failure count is 0 to 32 (R141), and the FIFO's head is no drain marker (R147). -/
def SpanLaw (s : State) : Prop := s.span.failures ≤ 32 ∧ headMarkers s.store.fifo = []

/-- The view that shows a slot's phase (R2). -/
def Phase.view : Phase → View
  | .claiming => .claiming
  | .announcing => .announcing
  | .held => .heldLocal
  | .releasing => .releasing

/-- The subscription state that shows a context's state (R4). -/
def ContextState.shown : ContextState → SubscriptionState
  | .joining => .joining
  | .joined => .joined
  | .leaving => .leaving
  | .draining => .draining

/-- Entries and slots agree (R1, R2): an allocated slot is named by its channel's entry, whose view shows its phase and
whose owner is the own number; a local view names a slot of its channel; outside the local views there is no slot index;
an owner is present exactly outside FREE. -/
def OwnershipLaw (s : State) : Prop :=
  (∀ i sl, s.slotAt i = some sl →
    (s.entry sl.channel).slotIndex = some i ∧ (s.entry sl.channel).view = sl.phase.view ∧
      (s.entry sl.channel).owner = some s.station.number) ∧
  (∀ c, (s.entry c).view.isLocal = true → ∃ i sl, s.slotAt i = some sl ∧ sl.channel = c) ∧
  (∀ c, (s.entry c).view.isLocal = false → (s.entry c).slotIndex = none) ∧
  (∀ c, (s.entry c).view = .free ↔ (s.entry c).owner = none)

/-- Entries and contexts agree, and no channel has both a slot and a context (R1, R4, R5). -/
def SubscriptionLaw (s : State) : Prop :=
  (∀ i k, s.contextAt i = some k →
    (s.entry k.channel).contextIndex = some i ∧ (s.entry k.channel).subscription = k.state.shown) ∧
  (∀ c, (s.entry c).subscription ≠ .none → ∃ i k, s.contextAt i = some k ∧ k.channel = c) ∧
  (∀ c, (s.entry c).subscription = .none → (s.entry c).contextIndex = none) ∧
  (∀ c, (s.entry c).view.isLocal = true → (s.entry c).subscription = .none)

/-- The long request whose tag a slot holds in a phase (R27, R36, R43). -/
def Phase.request : Phase → Option RequestKind
  | .claiming => some .claim
  | .announcing => some .claim
  | .held => none
  | .releasing => some .release

/-- The long request whose tag a context holds in a state (R68, R72, R75). -/
def ContextState.request : ContextState → Option RequestKind
  | .joining => some .join
  | .joined => none
  | .leaving => some .leave
  | .draining => none

/-- Requests and their work agree (R175, R177): a tag held by a slot or a context is the tag of a pending request of its
channel and of the kind its state serves; a pending CLAIM or RELEASE has such a slot, a pending JOIN or LEAVE such a
context, and a pending ATTACH or WITHDRAW names no channel. -/
def WorkLaw (s : State) : Prop :=
  (∀ i sl w, s.slotAt i = some sl → sl.tag = some w →
    ∃ kind, sl.phase.request = some kind ∧ ⟨w, kind, some sl.channel⟩ ∈ s.port.requests) ∧
  (∀ i k w, s.contextAt i = some k → k.tag = some w →
    ∃ kind, k.state.request = some kind ∧ ⟨w, kind, some k.channel⟩ ∈ s.port.requests) ∧
  (∀ r ∈ s.port.requests, r.kind = .claim ∨ r.kind = .release →
    ∃ i sl, s.slotAt i = some sl ∧ sl.tag = some r.tag ∧ r.channel = some sl.channel) ∧
  (∀ r ∈ s.port.requests, r.kind = .join ∨ r.kind = .leave →
    ∃ i k, s.contextAt i = some k ∧ k.tag = some r.tag ∧ r.channel = some k.channel) ∧
  (∀ r ∈ s.port.requests, r.kind = .attach ∨ r.kind = .withdraw → r.channel = none)

/-- The sets and timers of the slots, and the drain markers (R18, R23, R43 to R45, R107): a subscriber is a station 1 to 62
and not the own; CLAIMING and ANNOUNCING slots have none; the awaited set is a subset, and not empty only in RELEASING after
the drain snapshot, exactly while the drain timer and the resend timer run; a HELD slot owes nothing but ANNOUNCE; a
RELEASING slot past its snapshot awaits somebody or owes RELEASE; a marker is that of a RELEASING slot before its snapshot,
and behind it stands no marker and no DATA entry of its channel. -/
def DrainLaw (s : State) : Prop :=
  (∀ i sl, s.slotAt i = some sl →
    (∀ n, sl.subscribers.getLsbD n = true → 1 ≤ n ∧ n ≤ 62 ∧ n ≠ s.station.number.toNat) ∧
    (sl.phase = .claiming ∨ sl.phase = .announcing → sl.subscribers = 0) ∧
    (∀ n, sl.awaited.getLsbD n = true → sl.subscribers.getLsbD n = true) ∧
    (sl.awaited ≠ 0 → sl.phase = .releasing ∧ .marker sl.channel ∉ s.store.fifo) ∧
    (sl.drainTimer ≠ none ↔ sl.awaited ≠ 0) ∧ (sl.resendTimer ≠ none ↔ sl.awaited ≠ 0) ∧
    (sl.phase = .held → ∀ o, sl.owed = some o → o.kind = .announce) ∧
    (sl.phase = .releasing → .marker sl.channel ∉ s.store.fifo → sl.awaited = 0 →
      ∃ o, sl.owed = some o ∧ o.kind = .release)) ∧
  (∀ c, .marker c ∈ s.store.fifo → ∃ i sl, s.slotAt i = some sl ∧ sl.channel = c ∧ sl.phase = .releasing ∧
    ∀ o, sl.owed = some o → o.kind = .announce) ∧
  s.store.fifo.Pairwise (fun a b => ∀ c, a = .marker c → b ≠ .marker c ∧ b.isDataOf c = false)

/-- While RSTn is asserted the station is in its initial state (R189). -/
def ResetLaw (s : State) : Prop := s.station.inReset = true → s.assertReset = s

/-- The station's state and what it holds agree (R150): no slot and no context in DETACHED, LISTENING and MUTED; in
DETACHED no peer, no reply, no attempt, no owed BEACON and no station timer; in MUTED no reply, no FIFO entry, no owed
BEACON and no station timer. A departing BEACON is owed only in WITHDRAWING when nothing remains (R159). At most one
station-kind request is pending, ATTACH in LISTENING and WITHDRAW in WITHDRAWING (R154, R175). -/
def ModeLaw (s : State) : Prop :=
  (s.station.mode ≠ .active → s.station.mode ≠ .withdrawing → s.slots = [] ∧ s.contexts = []) ∧
  (s.station.mode = .detached →
    s.peers = [] ∧ s.span.replies = [] ∧ s.span.attempt = none ∧ s.station.beacon = none ∧
      s.station.presence = none ∧ s.station.listen = none) ∧
  (∀ reason, s.station.mode = .muted reason →
    s.span.replies = [] ∧ s.store.fifo = [] ∧ s.station.beacon = none ∧ s.station.presence = none ∧
      s.station.listen = none) ∧
  (s.departingOwed = true → s.station.mode = .withdrawing ∧ s.nothingRemains = true) ∧
  (∀ r ∈ s.port.requests, r.kind = .attach → s.station.mode = .listening) ∧
  (∀ r ∈ s.port.requests, r.kind = .withdraw → s.station.mode = .withdrawing) ∧
  s.port.requests.countP (fun r => r.kind = .attach || r.kind = .withdraw) ≤ 1

end Sys2Proof.Machine
end

