-- ==== Sys2Proof/WellFormed.lean ====
section
/-! DEFINITION. Which commands are instances of their row: the checks on operands that the types do not make. What exec
answers on the others is log 16. -/

namespace Sys2Proof

/-- The source of a well-formed message is a station number, and its epoch is an epoch (R134). -/
def Header.wellFormed (h : Header) : Bool := h.valid

/-- A command that is an instance of its row of spec/opcode_table.json. -/
def Instr.wellFormed : Instr → Bool
  | .send _ _ length payload => payload.length = length.toNat
  | .badRequest code => !isRequestCode code
  | .incompleteRequest octets bits =>
    bits < 8 && (octets ≠ [] || bits ≠ 0) && decodeRequest octets = .incomplete
  | .claimMessage h | .holdMessage h | .announceMessage h | .joinMessage h | .admitMessage h _ | .leaveMessage h
  | .leftMessage h | .drainMessage h | .drainedMessage h | .releaseMessage h | .beaconMessage h _ => h.wellFormed
  | .denyMessage h reason => h.wellFormed && (denyBody? reason).isSome
  | .dataMessage h sequence length payload => h.wellFormed && (dataBody? sequence length payload).isSome
  | .malformedMessage octets => (parseMessage octets).isNone
  | .peerTimerExpiry station => station ≠ 0 && station ≠ 63
  | .loadStartup _ _ | .attach _ | .withdraw _ | .restart _ | .readStation _ | .claimRequest _ _ | .releaseRequest _ _
  | .joinRequest _ _ | .leaveRequest _ _ | .setAction _ _ _ | .readChannel _ _ | .setFilter _ _ | .readFilter _ _
  | .take _ _ | .flush _ _ | .readPeer _ _ | .readEvent _ | .abort _ | .powerOnReset _ | .transmitAttempt
  | .lostContention | .echo | .failedAttempt _ | .duplicateNumberEvent | .claimWindowExpiry _ | .resendTimerExpiry _
  | .drainTimerExpiry _ | .joinResponseTimerExpiry _ | .leaveResponseTimerExpiry _ | .drainWaitTimerExpiry _
  | .presenceTimerExpiry | .listenTimerExpiry => true

end Sys2Proof
end

