-- ==== Sys2Proof/Certificates/Slice0/Obligations.lean ====
section
/-! DEFINITION. The statements for the provers. Each cites the rule of spec/ it formalises. A request's channel operand is
the two octets of its frame; `toChannel` is the channel they name. `∃ t, exec c s = .next t ∧ …` says that the command
completes, and what the next state holds. -/

open Sys2Proof Sys2Proof.Machine

/-! ### The block as a whole -/

/-- R165, R189: while RSTn is asserted every block is held in its initial state: no command but the deassertion has an effect,
SPAN_DE and ATTN are deasserted, the receiver is off, SDO is high impedance; at the deassertion the number is sampled from
the straps; a transaction whose CSn was asserted before it is not taken, with 0 on SDO, and the next one is. That the open
transaction is the next local-port command of the queue is the model's choice (log 18). -/
def Obligations.PowerOnResetPutsEveryBlockInItsInitialState : Prop :=
  (∀ s : State, ∃ t, exec (.powerOnReset .asserted) s = .next t ∧ Initial t ∧ t.station.inReset = true ∧
    (∀ point, t.sdo point = .highImpedance) ∧ ResetLaw t) ∧
  (∀ (s : State) (c : Instr), ResetLaw s → s.station.inReset = true →
    (∀ straps selected, c ≠ .powerOnReset (.released straps selected)) →
      exec c s = .next s ∧ Initial s ∧ ∀ point, s.sdo point = .highImpedance) ∧
  (∀ (straps : Station) (selected : Bool) (s : State), s.station.inReset = true →
    ∃ t, exec (.powerOnReset (.released straps selected)) s = .next t ∧ Initial t ∧ t.station.number = straps ∧
      t.station.inReset = false ∧ t.port.unread = selected) ∧
  (∀ (s : State) (c : Instr), s.station.inReset = false → s.port.unread = true → PortCommand c →
    (∀ n, s.sdo .request = .octet 0 ∧ s.sdo (.response n) = .octet 0) ∧
    ∃ t, exec c s = .next t ∧ t = { s with port := { s.port with unread := false } } ∧ PortOpen t)

/-- R130, R132, R137, R167, R172, R179: the receiver is on outside DETACHED; SPAN_DE is asserted exactly during an attempt, and
SPAN_TX carries its message, class and source first; ATTN is asserted exactly while an event record is stored or a receive
queue that the attention mask selects is not empty; SDO is high impedance while CSn is deasserted, 0 in the request phase,
and in the response phase the response and then 0. -/
def Obligations.LinesFollowTheState : Prop :=
  ∀ s : State,
    (s.receiverOn = false ↔ s.station.mode = .detached) ∧
    (s.span.attempt = none → s.spanDe = false ∧ s.spanTx = []) ∧
    (∀ a, s.span.attempt = some a → s.spanDe = true ∧ s.spanTx = a.message.octets ∧
      a.message.octets.take 5 =
        [(match a.message.body with
          | .data _ _ => 0x80 | .beacon _ => 0x40 | _ => 0x00) ||| a.message.header.source.setWidth 8,
         (match a.message.body with
          | .claim => 0x10 | .hold => 0x20 | .announce => 0x30 | .join => 0x40 | .admission _ => 0x50 | .deny _ => 0x60
          | .leave => 0x70 | .left => 0x80 | .drain => 0x90 | .drained => 0xA0 | .release => 0xB0 | .data _ _ => 0xC0
          | .beacon _ => 0xD0) ||| a.message.header.flags.setWidth 8,
         a.message.header.epoch, (a.message.header.channel.setWidth 16).extractLsb' 2 8,
         ((a.message.header.channel.extractLsb' 0 2).setWidth 8 <<< 6) ||| a.message.header.destination.setWidth 8]) ∧
    (s.attn = true ↔ s.events.records ≠ [] ∨
      ∃ r, s.station.startup = some r ∧
        ((r.attentionMask.getLsbD 0 = true ∧ s.store.q0.cells ≠ []) ∨
          (r.attentionMask.getLsbD 1 = true ∧ s.store.q1.cells ≠ []) ∨
          (r.attentionMask.getLsbD 2 = true ∧ s.store.q2.cells ≠ []) ∨
          (r.attentionMask.getLsbD 3 = true ∧ s.store.q3.cells ≠ []) ∨
          (r.attentionMask.getLsbD 4 = true ∧ s.store.qm.cells ≠ []))) ∧
    s.sdo .deselected = .highImpedance ∧
    (PortOpen s → s.sdo .request = .octet 0 ∧
      (∀ n (h : n < s.port.response.length), s.sdo (.response n) = .octet s.port.response[n]) ∧
      (∀ n, s.port.response.length ≤ n → s.sdo (.response n) = .octet 0))

/-- A step runs exactly the command at the front of the queue, on the state with the queue's rest. -/
def Obligations.StepRunsTheFrontCommand : Prop :=
  ∀ (c : Instr) (rest : List Instr) (s : State), s.pending = c :: rest → step s = exec c { s with pending := rest }

/-- R190, and the model's choices of log 3, 4 and 19: with no command waiting one millisecond passes (log 3); every running timer
has one less, and the time since last heard stays within 38250 (log 19); the expiries that are due, and they alone, then
wait, by slot, context and peer, and last the presence and the listen timer (log 4). -/
def Obligations.EmptyQueueStepIsOneMillisecond : Prop :=
  ∀ s : State, s.pending = [] → TableLaw s → ∃ t, step s = .next t ∧
    (∀ i, t.slotAt i = (s.slotAt i).map fun sl =>
      { sl with window := sl.window.map (· - 1), drainTimer := sl.drainTimer.map (· - 1),
                resendTimer := sl.resendTimer.map (· - 1) }) ∧
    (∀ i, t.contextAt i = (s.contextAt i).map fun k =>
      { k with responseTimer := k.responseTimer.map (· - 1), drainWait := k.drainWait.map (· - 1) }) ∧
    (∀ x, t.peerAt x = (s.peerAt x).map fun p =>
      { p with timer := p.timer - 1, sinceHeard := min 38250 (p.sinceHeard + 1) }) ∧
    t.station = { s.station with presence := s.station.presence.map (· - 1), listen := s.station.listen.map (· - 1) } ∧
    t.channels = s.channels ∧ t.classifier = s.classifier ∧ t.store = s.store ∧ t.span = s.span ∧ t.port = s.port ∧
    t.events = s.events ∧
    (∀ i : Fin 32, .claimWindowExpiry i ∈ t.pending ↔ ∃ sl, t.slotAt i = some sl ∧ sl.window = some 0) ∧
    (∀ i : Fin 32, .drainTimerExpiry i ∈ t.pending ↔ ∃ sl, t.slotAt i = some sl ∧ sl.drainTimer = some 0) ∧
    (∀ i : Fin 32, .resendTimerExpiry i ∈ t.pending ↔ ∃ sl, t.slotAt i = some sl ∧ sl.resendTimer = some 0) ∧
    (∀ i : Fin 64, .joinResponseTimerExpiry i ∈ t.pending ↔
      ∃ k, t.contextAt i = some k ∧ k.state = .joining ∧ k.responseTimer = some 0) ∧
    (∀ i : Fin 64, .leaveResponseTimerExpiry i ∈ t.pending ↔
      ∃ k, t.contextAt i = some k ∧ k.state ≠ .joining ∧ k.responseTimer = some 0) ∧
    (∀ i : Fin 64, .drainWaitTimerExpiry i ∈ t.pending ↔ ∃ k, t.contextAt i = some k ∧ k.drainWait = some 0) ∧
    (∀ x : Station, .peerTimerExpiry x ∈ t.pending ↔ ∃ p, t.peerAt x = some p ∧ p.timer = 0) ∧
    (.presenceTimerExpiry ∈ t.pending ↔ t.station.presence = some 0) ∧
    (.listenTimerExpiry ∈ t.pending ↔ t.station.listen = some 0) ∧
    t.pending = ExpiriesInOrder t

/-- The model's choices of log 2 and 21: every command answers a next state in every state, also where its event cannot arise
(log 2), and none touches the queue of waiting commands, POWER_ON_RESET included (log 21); a deassertion of an RSTn that is
not asserted has no effect (log 2). -/
def Obligations.EveryCommandAnswersANextStateAndKeepsTheQueue : Prop :=
  (∀ (c : Instr) (s : State), ∃ t, exec c s = .next t ∧ t.pending = s.pending) ∧
  (∀ (straps : Station) (selected : Bool) (s : State), s.station.inReset = false →
    exec (.powerOnReset (.released straps selected)) s = .next s)

/-! ### Requests on the station -/

/-- R152: LOAD_STARTUP is refused with WRONG_STATE, QUEUES_NOT_EMPTY or BAD_FIELD with the lowest index out of range, and
changes nothing; else the record is loaded whole and every overflow-notified flag clears. -/
def Obligations.LoadStartupIsJudgedInOrderAndLoadsTheRecordWhole : Prop :=
  ∀ (tag : Octet) (f : StartupRecord) (s : State), PortOpen s →
    (s.station.mode ≠ .detached → ∃ t, exec (.loadStartup tag f) s = .next t ∧ OnlyAnswers [7] s t) ∧
    (s.station.mode = .detached → ((∃ q, (s.store.queue q).cells ≠ []) ∨ s.store.fifo ≠ []) →
      ∃ t, exec (.loadStartup tag f) s = .next t ∧ OnlyAnswers [10] s t) ∧
    (s.station.mode = .detached → (∀ q, (s.store.queue q).cells = []) → s.store.fifo = [] →
      ∀ n, 1 ≤ n → n ≤ 15 → (∀ m, 1 ≤ m → m < n → FieldInRange f m) → ¬ FieldInRange f n →
        ∃ t, exec (.loadStartup tag f) s = .next t ∧ OnlyAnswers [11, BitVec.ofNat 8 n] s t) ∧
    (s.station.mode = .detached → (∀ q, (s.store.queue q).cells = []) → s.store.fifo = [] →
      (∀ n, 1 ≤ n → n ≤ 15 → FieldInRange f n) →
        ∃ t, exec (.loadStartup tag f) s = .next t ∧
          t.station = { s.station with startup := some f } ∧ t.port = { s.port with response := [0] } ∧
          (∀ q, t.store.queue q = { s.store.queue q with overflowNotified := false }) ∧
          t.store.free = s.store.free ∧ t.store.fifo = s.store.fifo ∧ t.store.sendFailures = s.store.sendFailures ∧
          ChangesOnly [.station, .store, .port] s t)

/-- R176: the checks common to the six long requests, in their order. -/
def Obligations.LongRequestsFirstPassTheCommonChecks : Prop :=
  ∀ (tag : Octet) (channel : Half) (s : State) (c : Instr), PortOpen s →
    c ∈ [.attach tag, .withdraw tag, .claimRequest tag channel, .releaseRequest tag channel, .joinRequest tag channel,
      .leaveRequest tag channel] →
    (tag = 0 → ∃ t, exec c s = .next t ∧ OnlyAnswers [3] s t) ∧
    (tag ≠ 0 → s.requestWith tag ≠ none → ∃ t, exec c s = .next t ∧ OnlyAnswers [4] s t) ∧
    (tag ≠ 0 → s.requestWith tag = none → s.port.requests.length = 16 →
      ∃ t, exec c s = .next t ∧ OnlyAnswers [5] s t) ∧
    (tag ≠ 0 → s.requestWith tag = none → s.port.requests.length < 16 → s.eventSum = 64 →
      ∃ t, exec c s = .next t ∧ OnlyAnswers [6] s t)

/-- R154, R155: ATTACH's own checks, in their order, and an accepted ATTACH, from DETACHED and from MUTED. -/
def Obligations.AttachIsRefusedOrTakesANewEpochAndListens : Prop :=
  (∀ (tag : Octet) (s : State), PassesCommonChecks s tag →
     ((s.station.mode = .listening ∨ s.station.mode = .active ∨ s.station.mode = .withdrawing) →
       ∃ t, exec (.attach tag) s = .next t ∧ OnlyAnswers [7] s t) ∧
     (s.station.mode = .detached → s.station.startup = none →
       ∃ t, exec (.attach tag) s = .next t ∧ OnlyAnswers [8] s t) ∧
     (((s.station.mode = .detached ∧ s.station.startup ≠ none) ∨ ∃ reason, s.station.mode = .muted reason) →
       (s.station.number = 0 ∨ s.station.number = 63) →
         ∃ t, exec (.attach tag) s = .next t ∧ OnlyAnswers [9] s t)) ∧
  (∀ (tag : Octet) (s : State) (r : StartupRecord), PassesCommonChecks s tag →
     (s.station.mode = .detached ∨ ∃ reason, s.station.mode = .muted reason) → s.station.startup = some r →
     s.station.number ≠ 0 → s.station.number ≠ 63 →
     ∃ t, exec (.attach tag) s = .next t ∧
       t.station =
         { s.station with
           mode := .listening
           epoch := if s.station.epoch = 255 then 1 else s.station.epoch + 1
           presence := some (10 * r.presenceInterval.toNat)
           listen := some (r.listenMultiple.toNat * (10 * r.presenceInterval.toNat))
           beacon := some ⟨false, 0, false⟩ } ∧
       t.span =
         { s.span with failures := 0, rate := if s.station.mode = .detached then some r.rateClass else s.span.rate } ∧
       t.port = { s.port with response := [0], requests := s.port.requests ++ [⟨tag, .attach, none⟩] } ∧
       ChangesOnly [.station, .span, .port] s t)

/-- R158: WITHDRAW is refused outside ACTIVE; accepted, it frees CLAIMING slots and JOINING contexts, whose requests complete
ABANDONED in ascending channel number behind the records stored before, leaves ANNOUNCING and RELEASING slots and LEAVING
contexts, releases HELD slots behind markers in ascending index (consumed at once when the FIFO is empty, R45), and turns
JOINED and DRAINING contexts to LEAVING; the Channel Table shows all of it. -/
def Obligations.WithdrawGivesBackEverythingByProtocol : Prop :=
  ∀ (tag : Octet) (s : State), PassesCommonChecks s tag →
    (s.station.mode ≠ .active → ∃ t, exec (.withdraw tag) s = .next t ∧ OnlyAnswers [12] s t) ∧
    (s.station.mode = .active → TableLaw s → OwnershipLaw s → SubscriptionLaw s → RequestLaw s → WorkLaw s →
        headMarkers s.store.fifo = [] →
      ∃ t, exec (.withdraw tag) s = .next t ∧
        t.station.mode = .withdrawing ∧ t.port.response = [0] ∧ ⟨tag, .withdraw, none⟩ ∈ t.port.requests ∧
        (∀ i, s.slotAt i = none → t.slotAt i = none) ∧
        (∀ i sl, s.slotAt i = some sl →
          (sl.phase = .claiming → t.slotAt i = none) ∧
          (sl.phase = .announcing ∨ sl.phase = .releasing → t.slotAt i = some sl) ∧
          (sl.phase = .held → t.slotAt i = some
            (if s.store.fifo = [] then SnapshotOf s { sl with phase := .releasing, tag := none }
             else { sl with phase := .releasing, tag := none }))) ∧
        t.store.fifo =
          (if s.store.fifo = [] then []
           else s.store.fifo ++ (s.slots.filter fun row => row.2.phase = .held).map fun row => .marker row.2.channel) ∧
        (∀ i, s.contextAt i = none → t.contextAt i = none) ∧
        (∀ i k, s.contextAt i = some k →
          (k.state = .joining → t.contextAt i = none) ∧
          (k.state = .leaving → t.contextAt i = some k) ∧
          (k.state = .joined ∨ k.state = .draining → t.contextAt i = some
            { k with state := .leaving, owed := some ⟨.leave, k.owner.getD 0, 0, false⟩, attemptsUsed := some 0,
                     responseTimer := none, drainWait := none, tag := none })) ∧
        (∀ c,
          ((s.entry c).view = .claiming → t.entry c =
            { s.entry c with view := .free, owner := none, slotIndex := none }) ∧
          ((s.entry c).view = .heldLocal → t.entry c = { s.entry c with view := .releasing }) ∧
          ((s.entry c).view = .announcing ∨ (s.entry c).view = .releasing → t.entry c = s.entry c) ∧
          ((s.entry c).view = .free ∨ (s.entry c).view = .heldRemote →
            ((s.entry c).subscription = .joining → t.entry c =
              { s.entry c with subscription := .none, contextIndex := none }) ∧
            ((s.entry c).subscription = .joined ∨ (s.entry c).subscription = .draining → t.entry c =
              { s.entry c with subscription := .leaving }) ∧
            ((s.entry c).subscription = .none ∨ (s.entry c).subscription = .leaving → t.entry c = s.entry c))) ∧
        (∃ l : List PendingRequest,
          (∀ r, r ∈ l ↔ r ∈ s.port.requests ∧
            ((∃ i sl, s.slotAt i = some sl ∧ sl.phase = .claiming ∧ sl.tag = some r.tag) ∨
              (∃ i k, s.contextAt i = some k ∧ k.state = .joining ∧ k.tag = some r.tag))) ∧
          l.Pairwise (fun a b => (a.channel.getD 0).toNat < (b.channel.getD 0).toNat) ∧
          t.events =
            ⟨s.events.records ++ l.map (fun r => .completion ⟨r.tag, r.kind, .abandoned, r.channel, none, none, false⟩),
              s.events.lost⟩ ∧
          (∀ r, r ∈ t.port.requests ↔ (r ∈ s.port.requests ∧ r ∉ l) ∨ r = ⟨tag, .withdraw, none⟩)) ∧
        (t.departingOwed = true ↔ t.nothingRemains = true ∨ s.departingOwed = true) ∧
        ChangesOnly [.channels, .slots, .contexts, .store, .station, .port, .events] s t)

/-- R164: RESTART, in every state. -/
def Obligations.RestartDiscardsAllWorkAndStoresRestarted : Prop :=
  ∀ (tag : Octet) (s : State), PortOpen s → ∃ t, exec (.restart tag) s = .next t ∧
    t.station = { s.station with mode := .detached, presence := none, listen := none, beacon := none } ∧
    t.span = { s.span with replies := [], attempt := none, failures := 0, rate := none } ∧
    t.receiverOn = false ∧ (∀ i, t.slotAt i = none) ∧ (∀ i, t.contextAt i = none) ∧ (∀ x, t.peerAt x = none) ∧
    (∀ c, t.entry c = { s.entry c with view := .free, owner := none, slotIndex := none, subscription := .none,
                                       contextIndex := none, queued := 0 }) ∧
    t.store.fifo = [] ∧ t.store.free = 256 ∧ t.store.sendFailures = s.store.sendFailures ∧
    (∀ q, t.store.queue q = ⟨[], false, (s.store.queue q).drops⟩) ∧
    t.port = { s.port with response := [0], requests := [] } ∧
    t.events = ⟨[.notification .restarted 0], 0⟩ ∧ t.attn = true ∧
    t.classifier = s.classifier ∧ t.pending = s.pending

/-! ### Reading requests -/

/-- R166, R171, R174: READ_STATION answers OK and the 31 octets of the layout, and changes nothing. That these are all, without
the reply queue that R149 says READ_STATION returns, is the model's reading (log 22). -/
def Obligations.ReadStationReturnsStateAndCounters : Prop :=
  ∀ (tag : Octet) (s : State), PortOpen s → ∃ t, exec (.readStation tag) s = .next t ∧
    OnlyAnswers
      ([0,
        match s.station.mode with
        | .detached => 0 | .listening => 1 | .active => 2 | .withdrawing => 3 | .muted _ => 4,
        match s.station.mode with
        | .muted .spanFailures => 1 | .muted .duplicateNumber => 2 | _ => 0,
        s.station.number.setWidth 8, s.station.epoch, if s.station.startup.isSome then 1 else 0,
        BitVec.ofNat 8 s.span.failures] ++ halfOctets (BitVec.ofNat 16 s.store.free) ++
        [BitVec.ofNat 8 s.store.fifo.length] ++
        ([s.span.malformed, s.span.replyOverflows, s.classifier.stray, s.store.sendFailures, s.store.q0.drops,
          s.store.q1.drops, s.store.q2.drops, s.store.q3.drops, s.store.qm.drops, s.port.frameErrors,
          s.span.duplicates].flatMap halfOctets)) s t

/-- R22, R174: READ_CHANNEL refuses a channel above 1023; else it answers OK and 19 octets, an absent item as 0 with its
presence bit clear, and changes nothing. -/
def Obligations.ReadChannelReturnsTheEntryWithSlotAndContext : Prop :=
  ∀ (tag : Octet) (channel : Half) (s : State), PortOpen s →
    (1023 < channel.toNat → ∃ t, exec (.readChannel tag channel) s = .next t ∧ OnlyAnswers [13] s t) ∧
    (channel.toNat ≤ 1023 → ∀ (e : ChannelEntry) (owner contextOwner : Option Station) (expected sequence : Option Seq)
        (subscribers : Option StationSet) (awaited : Option Nat),
      e = s.entry (toChannel channel) →
      owner = (if e.view = .free then none else e.owner) →
      (contextOwner, expected) =
        (if e.subscription = .joined ∨ e.subscription = .leaving ∨ e.subscription = .draining then
          match s.contextOf (toChannel channel) with
          | some (_, k) => (k.owner, k.expected)
          | none => (none, none)
         else (none, none)) →
      (sequence, subscribers) =
        (if e.view = .heldLocal ∨ e.view = .releasing then
          match s.slotOf (toChannel channel) with
          | some (_, sl) => (sl.transmitSequence, some sl.subscribers)
          | none => (none, none)
         else (none, none)) →
      awaited =
        (if e.view = .releasing ∧ s.markerWaits (toChannel channel) = false then
          (s.slotOf (toChannel channel)).map fun row => stationCount row.2.awaited
         else none) →
      ∃ t, exec (.readChannel tag channel) s = .next t ∧
        OnlyAnswers
          ([0,
            (if owner.isSome then 0x01 else 0) ||| (if contextOwner.isSome then 0x02 else 0) |||
              (if expected.isSome then 0x04 else 0) ||| (if sequence.isSome then 0x08 else 0) |||
              (if subscribers.isSome then 0x10 else 0) ||| (if awaited.isSome then 0x20 else 0),
            match e.view with
            | .free => 0 | .heldRemote => 1 | .claiming => 2 | .announcing => 3 | .heldLocal => 4 | .releasing => 5,
            (owner.getD 0).setWidth 8,
            (if e.discard then 0x80 else 0) ||| (if e.trap then 0x40 else 0) ||| BitVec.ofNat 8 e.group.val] ++
            halfOctets (BitVec.ofNat 16 e.queued) ++
            [match e.subscription with
             | .none => 0 | .joining => 1 | .joined => 2 | .leaving => 3 | .draining => 4,
             (contextOwner.getD 0).setWidth 8, expected.getD 0, sequence.getD 0] ++
            [56, 48, 40, 32, 24, 16, 8, 0].map (fun n => (subscribers.getD 0).extractLsb' n 8) ++
            [BitVec.ofNat 8 (awaited.getD 0)]) s t)

/-- R98, R128, R174: READ_FILTER and READ_PEER refuse an operand out of range with BAD_FIELD; else they answer OK and their
layouts, and change nothing. -/
def Obligations.ReadFilterAndReadPeerReturnTheirLayouts : Prop :=
  (∀ (tag index : Octet) (s : State), PortOpen s →
    (3 < index.toNat → ∃ t, exec (.readFilter tag index) s = .next t ∧ OnlyAnswers [11] s t) ∧
    (∀ k : Fin 4, index.toNat = k.val → ∃ t, exec (.readFilter tag index) s = .next t ∧
      OnlyAnswers
        ([0, if (s.filter k).enabled then 1 else 0] ++ halfOctets ((s.filter k).channelLow.setWidth 16) ++
          halfOctets ((s.filter k).channelHigh.setWidth 16) ++ [(s.filter k).offset] ++
          halfOctets (s.filter k).value ++ halfOctets (s.filter k).mask) s t)) ∧
  (∀ (tag station : Octet) (s : State), PortOpen s →
    (station.toNat = 0 ∨ 62 < station.toNat →
      ∃ t, exec (.readPeer tag station) s = .next t ∧ OnlyAnswers [11] s t) ∧
    (∀ x : Station, station.toNat = x.toNat → x ≠ 0 → x ≠ 63 →
      (x = s.station.number →
        ∃ t, exec (.readPeer tag station) s = .next t ∧ OnlyAnswers [0, 0, 2, 0, 0, 0, 0, 0, 0] s t) ∧
      (x ≠ s.station.number → s.peerAt x = none →
        ∃ t, exec (.readPeer tag station) s = .next t ∧ OnlyAnswers [0, 0, 0, 0, 0, 0, 0, 0, 0] s t) ∧
      (∀ p, x ≠ s.station.number → s.peerAt x = some p →
        ∃ t, exec (.readPeer tag station) s = .next t ∧
          OnlyAnswers
            ([0, if p.interval.isSome then 0x0F else 0x0D, 1, p.epoch, p.interval.getD 0] ++
              halfOctets (BitVec.ofNat 16 p.sinceHeard) ++
              halfOctets (BitVec.ofNat 16 (10 * (p.interval.getD s.record.presenceInterval).toNat *
                s.record.peerMultiple.toNat))) s t)))

/-! ### Requests on a channel -/

/-- R26, R67: the own checks of CLAIM, and of JOIN, in their order. -/
def Obligations.ClaimAndJoinRequestsAreRefusedByTheFirstFailingCheck : Prop :=
  (∀ (tag : Octet) (channel : Half) (s : State) (e : ChannelEntry), PassesCommonChecks s tag →
     e = s.entry (toChannel channel) →
     (s.station.mode ≠ .active → ∃ t, exec (.claimRequest tag channel) s = .next t ∧ OnlyAnswers [12] s t) ∧
     (s.station.mode = .active → 1023 < channel.toNat →
       ∃ t, exec (.claimRequest tag channel) s = .next t ∧ OnlyAnswers [13] s t) ∧
     (s.station.mode = .active → channel.toNat ≤ 1023 →
       (e.view = .heldLocal → ∃ t, exec (.claimRequest tag channel) s = .next t ∧ OnlyAnswers [15] s t) ∧
       (e.view = .claiming ∨ e.view = .announcing ∨ e.view = .releasing →
         ∃ t, exec (.claimRequest tag channel) s = .next t ∧ OnlyAnswers [14] s t) ∧
       (e.view = .free ∨ e.view = .heldRemote → e.subscription ≠ .none →
         ∃ t, exec (.claimRequest tag channel) s = .next t ∧ OnlyAnswers [16] s t) ∧
       (e.view = .free ∨ e.view = .heldRemote → e.subscription = .none → (∀ i, i < 32 → s.slotAt i ≠ none) →
         ∃ t, exec (.claimRequest tag channel) s = .next t ∧ OnlyAnswers [17] s t))) ∧
  (∀ (tag : Octet) (channel : Half) (s : State) (e : ChannelEntry), PassesCommonChecks s tag →
     e = s.entry (toChannel channel) →
     (s.station.mode ≠ .active → ∃ t, exec (.joinRequest tag channel) s = .next t ∧ OnlyAnswers [12] s t) ∧
     (s.station.mode = .active → 1023 < channel.toNat →
       ∃ t, exec (.joinRequest tag channel) s = .next t ∧ OnlyAnswers [13] s t) ∧
     (s.station.mode = .active → channel.toNat ≤ 1023 →
       (e.view = .claiming ∨ e.view = .announcing ∨ e.view = .heldLocal ∨ e.view = .releasing →
         ∃ t, exec (.joinRequest tag channel) s = .next t ∧ OnlyAnswers [19] s t) ∧
       (e.view = .free ∨ e.view = .heldRemote → e.subscription ≠ .none →
         ∃ t, exec (.joinRequest tag channel) s = .next t ∧ OnlyAnswers [20] s t) ∧
       (e.view = .free ∨ e.view = .heldRemote → e.subscription = .none → (∀ i, i < 64 → s.contextAt i ≠ none) →
         ∃ t, exec (.joinRequest tag channel) s = .next t ∧ OnlyAnswers [21] s t)))

/-- R27, R68, R15: an accepted CLAIM allocates the lowest-numbered free slot, owing CLAIM; an accepted JOIN allocates the
lowest-numbered free context, owing JOIN to the recorded owner or to all. -/
def Obligations.ClaimAndJoinRequestsAllocateTheLowestFree : Prop :=
  (∀ (tag : Octet) (channel : Half) (s : State) (i : Nat), PassesCommonChecks s tag →
    s.station.mode = .active → channel.toNat ≤ 1023 →
    ((s.entry (toChannel channel)).view = .free ∨ (s.entry (toChannel channel)).view = .heldRemote) →
    (s.entry (toChannel channel)).subscription = .none →
    i < 32 → s.slotAt i = none → (∀ j, j < i → s.slotAt j ≠ none) →
    ∃ t, exec (.claimRequest tag channel) s = .next t ∧
      t.slotAt i = some ⟨toChannel channel, .claiming, some ⟨.claim, 0, false⟩, none, none, 0, 0, none, none, false, none,
        some tag⟩ ∧
      t.entry (toChannel channel) =
        { s.entry (toChannel channel) with
          view := .claiming, owner := some s.station.number, slotIndex := some i } ∧
      t.port =
        { s.port with response := [0],
                      requests := s.port.requests ++ [⟨tag, .claim, some (toChannel channel)⟩] } ∧
      OtherSlots i s t ∧ OtherEntries (toChannel channel) s t ∧ ChangesOnly [.slots, .channels, .port] s t) ∧
  (∀ (tag : Octet) (channel : Half) (s : State) (i : Nat) (destination : Station), PassesCommonChecks s tag →
    s.station.mode = .active → channel.toNat ≤ 1023 →
    (((s.entry (toChannel channel)).view = .free ∧ destination = 0) ∨
      ((s.entry (toChannel channel)).view = .heldRemote ∧ (s.entry (toChannel channel)).owner = some destination)) →
    (s.entry (toChannel channel)).subscription = .none →
    i < 64 → s.contextAt i = none → (∀ j, j < i → s.contextAt j ≠ none) →
    ∃ t, exec (.joinRequest tag channel) s = .next t ∧
      t.contextAt i = some ⟨toChannel channel, .joining, none, none, some ⟨.join, destination, 0, false⟩, some 0, none,
        none, false, some tag⟩ ∧
      t.entry (toChannel channel) =
        { s.entry (toChannel channel) with subscription := .joining, contextIndex := some i } ∧
      t.port =
        { s.port with response := [0],
                      requests := s.port.requests ++ [⟨tag, .join, some (toChannel channel)⟩] } ∧
      OtherContexts i s t ∧ OtherEntries (toChannel channel) s t ∧ ChangesOnly [.contexts, .channels, .port] s t)

/-- R42, R111: the own checks of RELEASE, and the checks of SEND, in their order; a SEND frame is whole when it carries as many
payload octets as its length octet. The first four checks of SEND read no startup record, so they hold with none loaded
too. -/
def Obligations.ReleaseAndSendAreRefusedByTheFirstFailingCheck : Prop :=
  (∀ (tag : Octet) (channel : Half) (s : State) (e : ChannelEntry) (pending : Prop), PassesCommonChecks s tag →
     e = s.entry (toChannel channel) →
     (pending ↔ ∃ r ∈ s.port.requests, r.kind = .release ∧ r.channel = some (toChannel channel)) →
     (1023 < channel.toNat → ∃ t, exec (.releaseRequest tag channel) s = .next t ∧ OnlyAnswers [13] s t) ∧
     (channel.toNat ≤ 1023 →
       (e.view = .claiming ∨ e.view = .announcing ∨ (e.view = .releasing ∧ pending) →
         ∃ t, exec (.releaseRequest tag channel) s = .next t ∧ OnlyAnswers [14] s t) ∧
       (e.view = .free ∨ e.view = .heldRemote ∨ (e.view = .releasing ∧ ¬ pending) →
         ∃ t, exec (.releaseRequest tag channel) s = .next t ∧ OnlyAnswers [18] s t))) ∧
  (∀ (tag : Octet) (channel : Half) (length : Octet) (payload : List Octet) (s : State) (e : ChannelEntry), PortOpen s →
     payload.length = length.toNat → e = s.entry (toChannel channel) →
     (1023 < channel.toNat → ∃ t, exec (.send tag channel length payload) s = .next t ∧ OnlyAnswers [13] s t) ∧
     (channel.toNat ≤ 1023 →
       (e.view = .releasing → ∃ t, exec (.send tag channel length payload) s = .next t ∧ OnlyAnswers [23] s t) ∧
       (e.view = .free ∨ e.view = .heldRemote ∨ e.view = .claiming ∨ e.view = .announcing →
         ∃ t, exec (.send tag channel length payload) s = .next t ∧ OnlyAnswers [18] s t) ∧
       (∀ i sl q, e.view = .heldLocal → e.slotIndex = some i → s.slotAt i = some sl → sl.transmitSequence = some q →
         (length.toNat = 0 ∨ 64 < length.toNat →
           ∃ t, exec (.send tag channel length payload) s = .next t ∧ OnlyAnswers [24] s t) ∧
         (∀ r, s.station.startup = some r → 1 ≤ length.toNat → length.toNat ≤ 64 →
           (r.transmitLimit.toNat ≤ dataEntries s.store.fifo →
             ∃ t, exec (.send tag channel length payload) s = .next t ∧ OnlyAnswers [25] s t) ∧
           (dataEntries s.store.fifo < r.transmitLimit.toNat → s.store.free = 0 →
             ∃ t, exec (.send tag channel length payload) s = .next t ∧ OnlyAnswers [26] s t)))))

/-- R43, R45: an accepted RELEASE makes the slot RELEASING and appends the drain marker, which an empty FIFO consumes at
once, with the drain snapshot. -/
def Obligations.ReleaseRequestStartsTheReleaseBehindAMarker : Prop :=
  ∀ (tag : Octet) (channel : Half) (s : State) (i : Nat) (sl : Slot) (r : StartupRecord), PassesCommonChecks s tag →
    channel.toNat ≤ 1023 → (s.entry (toChannel channel)).view = .heldLocal →
    (s.entry (toChannel channel)).slotIndex = some i → s.slotAt i = some sl → sl.channel = toChannel channel →
    headMarkers s.store.fifo = [] → s.station.startup = some r →
    ∃ t, exec (.releaseRequest tag channel) s = .next t ∧
      t.slotAt i = some
        (if s.store.fifo ≠ [] then { sl with phase := .releasing, tag := some tag }
         else if sl.subscribers = 0 then
           { sl with phase := .releasing, tag := some tag, awaited := 0, drainTimer := none, resendTimer := none,
                     owed := some ⟨.release, 0, false⟩ }
         else
           { sl with phase := .releasing, tag := some tag, awaited := sl.subscribers,
                     drainTimer := some (10 * r.drainTimeout.toNat), resendTimer := some r.responseTimeout.toNat,
                     owed := some ⟨.drain, 0, false⟩ }) ∧
      t.entry (toChannel channel) =
        { s.entry (toChannel channel) with
          view := .releasing, owner := some s.station.number, slotIndex := some i } ∧
      t.store =
        { s.store with fifo := if s.store.fifo = [] then [] else s.store.fifo ++ [.marker (toChannel channel)] } ∧
      t.port =
        { s.port with response := [0],
                      requests := s.port.requests ++ [⟨tag, .release, some (toChannel channel)⟩] } ∧
      OtherSlots i s t ∧ OtherEntries (toChannel channel) s t ∧ ChangesOnly [.slots, .channels, .store, .port] s t

/-- R112: an accepted SEND takes a buffer, appends the DATA entry with the slot's transmit sequence, moves the sequence on,
and answers the sequence. -/
def Obligations.SendAppendsADataEntryWithTheTransmitSequence : Prop :=
  ∀ (tag : Octet) (channel : Half) (length : Octet) (payload : List Octet) (s : State) (r : StartupRecord) (i : Nat)
    (sl : Slot) (q : Seq), PortOpen s →
    payload.length = length.toNat → s.station.startup = some r → channel.toNat ≤ 1023 →
    (s.entry (toChannel channel)).view = .heldLocal → (s.entry (toChannel channel)).slotIndex = some i →
    s.slotAt i = some sl → sl.transmitSequence = some q → 1 ≤ length.toNat → length.toNat ≤ 64 →
    dataEntries s.store.fifo < r.transmitLimit.toNat → 0 < s.store.free →
    ∃ t, exec (.send tag channel length payload) s = .next t ∧
      t.slotAt i = some { sl with transmitSequence := some (q + 1) } ∧
      t.store =
        { s.store with free := s.store.free - 1,
                       fifo := s.store.fifo ++ [.data (toChannel channel) q payload 0 false false] } ∧
      t.port = { s.port with response := [0, q] } ∧
      OtherSlots i s t ∧ ChangesOnly [.slots, .store, .port] s t

/-- R75: LEAVE's own checks in their order, and an accepted LEAVE. -/
def Obligations.LeaveRequestIsCheckedAndMakesTheContextLeaving : Prop :=
  ∀ (tag : Octet) (channel : Half) (s : State) (e : ChannelEntry), PassesCommonChecks s tag →
    e = s.entry (toChannel channel) →
    (1023 < channel.toNat → ∃ t, exec (.leaveRequest tag channel) s = .next t ∧ OnlyAnswers [13] s t) ∧
    (channel.toNat ≤ 1023 →
      (e.subscription = .none ∨ e.subscription = .joining →
        ∃ t, exec (.leaveRequest tag channel) s = .next t ∧ OnlyAnswers [22] s t) ∧
      (∀ i k, e.contextIndex = some i → s.contextAt i = some k → k.channel = toChannel channel →
        (e.subscription = .leaving →
          ∃ t, exec (.leaveRequest tag channel) s = .next t ∧ OnlyAnswers [14] s t) ∧
        (∀ owner, e.subscription = .joined ∨ e.subscription = .draining → k.owner = some owner →
          ∃ t, exec (.leaveRequest tag channel) s = .next t ∧
            t.contextAt i = some
              { k with state := .leaving, owed := some ⟨.leave, owner, 0, false⟩, attemptsUsed := some 0,
                       responseTimer := none, drainWait := none, tag := some tag } ∧
            t.entry (toChannel channel) =
              { s.entry (toChannel channel) with subscription := .leaving, contextIndex := some i } ∧
            t.port =
              { s.port with response := [0],
                            requests := s.port.requests ++ [⟨tag, .leave, some (toChannel channel)⟩] } ∧
            OtherContexts i s t ∧ OtherEntries (toChannel channel) s t ∧
            ChangesOnly [.contexts, .channels, .port] s t)))

/-! ### Requests on tables, queues and events -/

/-- R6, R171: SET_ACTION refuses a channel above 1023 and a group above 3; else it replaces the three actions of one entry
and nothing else. That a channel above 1023 is answered first when the group is above 3 too is the model's choice (log
13). -/
def Obligations.SetActionReplacesTheThreeActionsOfOneEntry : Prop :=
  ∀ (tag : Octet) (channel : Half) (actions : Octet) (s : State), PortOpen s →
    (1023 < channel.toNat → ∃ t, exec (.setAction tag channel actions) s = .next t ∧ OnlyAnswers [13] s t) ∧
    (channel.toNat ≤ 1023 → 3 < (actions &&& 0x0F).toNat →
      ∃ t, exec (.setAction tag channel actions) s = .next t ∧ OnlyAnswers [11] s t) ∧
    (∀ g : Fin 4, channel.toNat ≤ 1023 → (actions &&& 0x0F).toNat = g.val →
      ∃ t, exec (.setAction tag channel actions) s = .next t ∧
        t.entry (toChannel channel) =
          { s.entry (toChannel channel) with
            discard := actions.getLsbD 7, trap := actions.getLsbD 6, group := g } ∧
        t.port = { s.port with response := [0] } ∧
        OtherEntries (toChannel channel) s t ∧ ChangesOnly [.channels, .port] s t)

/-- R97: SET_FILTER's checks in their order, and the filter it writes. -/
def Obligations.SetFilterIsCheckedAndWritesEveryField : Prop :=
  ∀ (tag : Octet) (p : FilterParameters) (s : State), PortOpen s →
    (3 < p.index.toNat → ∃ t, exec (.setFilter tag p) s = .next t ∧ OnlyAnswers [11] s t) ∧
    (p.index.toNat ≤ 3 → 1023 < p.channelLow.toNat ∨ 1023 < p.channelHigh.toNat →
      ∃ t, exec (.setFilter tag p) s = .next t ∧ OnlyAnswers [13] s t) ∧
    (p.index.toNat ≤ 3 → p.channelLow.toNat ≤ 1023 → p.channelHigh.toNat ≤ 1023 →
      (p.channelHigh.toNat < p.channelLow.toNat ∨ 62 < p.offset.toNat →
        ∃ t, exec (.setFilter tag p) s = .next t ∧ OnlyAnswers [11] s t) ∧
      (∀ k : Fin 4, p.index.toNat = k.val → p.channelLow.toNat ≤ p.channelHigh.toNat → p.offset.toNat ≤ 62 →
        ∃ t, exec (.setFilter tag p) s = .next t ∧
          t.filter k = ⟨p.enable.getLsbD 0, p.channelLow.setWidth 10, p.channelHigh.setWidth 10, p.offset, p.value,
            p.mask⟩ ∧
          (∀ j, j ≠ k → t.filter j = s.filter j) ∧ t.classifier.stray = s.classifier.stray ∧
          t.port = { s.port with response := [0] } ∧ ChangesOnly [.classifier, .port] s t))

/-- R104, R103, R8, R59: TAKE refuses a queue number above 4, answers EMPTY for an empty queue, or removes the head, frees
its buffer, lowers its channel's count and returns the descriptor; a count of a DRAINING channel that is then 0 makes
DRAINED owed, unless it is owed already. -/
def Obligations.TakeRemovesTheHeadAndReturnsItsLayout : Prop :=
  ∀ (tag queue : Octet) (s : State), PortOpen s →
    (4 < queue.toNat → ∃ t, exec (.take tag queue) s = .next t ∧ OnlyAnswers [11] s t) ∧
    (∀ q : QueueName, queue.toNat = q.number →
      ((s.store.queue q).cells = [] → ∃ t, exec (.take tag queue) s = .next t ∧ OnlyAnswers [1] s t) ∧
      (∀ d rest, (s.store.queue q).cells = d :: rest →
        ∃ t, exec (.take tag queue) s = .next t ∧
          t.store.queue q =
            { s.store.queue q with
              cells := rest
              overflowNotified := if rest = [] then false else (s.store.queue q).overflowNotified } ∧
          (∀ q', q' ≠ q → t.store.queue q' = s.store.queue q') ∧
          t.store.free = s.store.free + 1 ∧ t.store.fifo = s.store.fifo ∧
          t.store.sendFailures = s.store.sendFailures ∧
          t.entry d.channel = { s.entry d.channel with queued := (s.entry d.channel).queued - 1 } ∧
          OtherEntries d.channel s t ∧
          (∀ i, (s.entry d.channel).contextIndex ≠ some i → t.contextAt i = s.contextAt i) ∧
          (∀ i, (s.entry d.channel).contextIndex = some i → t.contextAt i = (s.contextAt i).map fun k =>
            if (s.entry d.channel).queued - 1 = 0 ∧ (s.entry d.channel).subscription = .draining ∧
                ¬ (∃ o, k.owed = some o ∧ o.kind = .drained) then
              { k with owed := some ⟨.drained, k.owner.getD 0, 0, false⟩ }
            else k) ∧
          t.port =
            { s.port with
              response :=
                ([0] : List Octet) ++ halfOctets (d.channel ++ d.source) ++
                  [d.sequence, BitVec.ofNat 8 d.payload.length,
                   match d.missing with
                   | some n => 0x80 ||| BitVec.ofNat 8 n
                   | none => 0,
                   match d.route with
                   | .delivered => 0x00
                   | .channelTrap => 0x40
                   | .filter k => 0x80 ||| BitVec.ofNat 8 k.val,
                   BitVec.ofNat 8 rest.length] ++ d.payload } ∧
          ChangesOnly [.store, .channels, .contexts, .port] s t))

/-- R106, R59: FLUSH removes every descriptor of one queue, lowers the counts by as many, and answers how many; one that brings a
DRAINING channel's count to 0 makes its context owe DRAINED, and no other context changes. -/
def Obligations.FlushEmptiesOneQueueAndAnswersHowMany : Prop :=
  (∀ (tag queue : Octet) (s : State), PortOpen s →
     (4 < queue.toNat → ∃ t, exec (.flush tag queue) s = .next t ∧ OnlyAnswers [11] s t) ∧
     (∀ q : QueueName, queue.toNat = q.number →
       ∃ t, exec (.flush tag queue) s = .next t ∧
         t.store.queue q =
           { s.store.queue q with
             cells := []
             overflowNotified := if (s.store.queue q).cells = [] then (s.store.queue q).overflowNotified else false } ∧
         (∀ q', q' ≠ q → t.store.queue q' = s.store.queue q') ∧
         t.store.free = s.store.free + (s.store.queue q).cells.length ∧ t.store.fifo = s.store.fifo ∧
         t.store.sendFailures = s.store.sendFailures ∧
         (∀ c, t.entry c =
           { s.entry c with queued := (s.entry c).queued - (s.store.queue q).cellsOf c }) ∧
         (∀ i, (∀ c, 0 < (s.store.queue q).cellsOf c → (s.entry c).contextIndex = some i →
             (s.entry c).queued ≤ (s.store.queue q).cellsOf c → (s.entry c).subscription ≠ .draining) →
           t.contextAt i = s.contextAt i) ∧
         t.port =
           { s.port with
             response := 0 :: halfOctets (BitVec.ofNat 16 (s.store.queue q).cells.length) } ∧
         ChangesOnly [.store, .channels, .contexts, .port] s t)) ∧
  (∀ (tag queue : Octet) (s : State) (q : QueueName) (c : Channel) (i : Nat) (k : Context),
     PortOpen s → queue.toNat = q.number → 0 < (s.store.queue q).cellsOf c →
     (s.entry c).queued = (s.store.queue q).cellsOf c → (s.entry c).subscription = .draining →
     (s.entry c).contextIndex = some i → s.contextAt i = some k → SubscriptionLaw s →
     ∃ t, exec (.flush tag queue) s = .next t ∧ (t.entry c).queued = 0 ∧
       ∃ k', t.contextAt i = some k' ∧ k'.state = k.state ∧
         ((∃ o, k.owed = some o ∧ o.kind = .drained) → k' = k) ∧
         ((¬ ∃ o, k.owed = some o ∧ o.kind = .drained) →
           k' = { k with owed := some ⟨.drained, k.owner.getD 0, 0, false⟩ }))

/-- R182, R186: READ_EVENT answers EMPTY, or removes the oldest record and returns its eleven octets: kind, presence bits,
tag, request code, result or reason, channel, station, count, lost-notification count, an absent field as 0. -/
def Obligations.ReadEventRemovesTheOldestRecord : Prop :=
  ∀ (tag : Octet) (s : State), PortOpen s →
    (s.events.records = [] → ∃ t, exec (.readEvent tag) s = .next t ∧ OnlyAnswers [1] s t) ∧
    (∀ e rest, s.events.records = e :: rest →
      ∃ t, exec (.readEvent tag) s = .next t ∧
        t.events = { s.events with records := rest } ∧ ChangesOnly [.events, .port] s t ∧
        t.port = { s.port with response := 0 :: RecordOctets e })

/-- R178: what ABORT does for each kind of pending request, by the state of its work. -/
def Obligations.AbortActsByTheStateOfTheRequestsWork : Prop :=
  ∀ (tag : Octet) (s : State), PortOpen s →
    (s.requestWith tag = none → ∃ t, exec (.abort tag) s = .next t ∧ OnlyAnswers [29] s t) ∧
    (∀ r, s.requestWith tag = some r →
      (r.kind = .release ∨ r.kind = .leave ∨ r.kind = .withdraw →
        ∃ t, exec (.abort tag) s = .next t ∧ OnlyAnswers [28] s t) ∧
      (∀ c i sl, r.kind = .claim → r.channel = some c → (s.entry c).slotIndex = some i → s.slotAt i = some sl →
        (sl.phase ≠ .claiming → ∃ t, exec (.abort tag) s = .next t ∧ OnlyAnswers [27] s t) ∧
        (sl.phase = .claiming →
          ∃ t, exec (.abort tag) s = .next t ∧
            t.slotAt i = none ∧ OtherSlots i s t ∧
            t.entry c = { s.entry c with view := .free, owner := none, slotIndex := none } ∧ OtherEntries c s t ∧
            t.port =
              { s.port with response := [0], requests := s.port.requests.eraseP (fun q => q.tag = tag) } ∧
            t.events =
              { s.events with
                records := s.events.records ++ [.completion ⟨tag, .claim, .aborted, some c, none, none, false⟩] } ∧
            WithdrawalTested s t ∧ ChangesOnly [.slots, .channels, .port, .events, .station] s t)) ∧
      (∀ c i k, r.kind = .join → r.channel = some c → (s.entry c).contextIndex = some i → s.contextAt i = some k →
        k.state = .joining →
          ∃ t, exec (.abort tag) s = .next t ∧
            t.contextAt i = none ∧ OtherContexts i s t ∧
            t.entry c = { s.entry c with subscription := .none, contextIndex := none } ∧ OtherEntries c s t ∧
            t.port =
              { s.port with response := [0], requests := s.port.requests.eraseP (fun q => q.tag = tag) } ∧
            t.events =
              { s.events with
                records := s.events.records ++ [.completion ⟨tag, .join, .aborted, some c, none, none, false⟩] } ∧
            WithdrawalTested s t ∧ ChangesOnly [.contexts, .channels, .port, .events, .station] s t) ∧
      (r.kind = .attach → s.station.mode = .listening →
          ∃ t, exec (.abort tag) s = .next t ∧
            t.station = { s.station with mode := .detached, presence := none, listen := none, beacon := none } ∧
            t.span = { s.span with replies := [], attempt := none, rate := none } ∧ (∀ x, t.peerAt x = none) ∧
            (∀ c, t.entry c =
              if (s.entry c).view = .heldRemote then
                { s.entry c with view := .free, owner := none, slotIndex := none }
              else s.entry c) ∧
            t.port =
              { s.port with response := [0], requests := s.port.requests.eraseP (fun q => q.tag = tag) } ∧
            t.events =
              { s.events with
                records := s.events.records ++ [.completion ⟨tag, .attach, .aborted, r.channel, none, none, false⟩] } ∧
            ChangesOnly [.station, .span, .peers, .channels, .port, .events] s t))

/-- R169, R170: a code octet that is no request code is answered BAD_REQUEST with no effect; a frame cut short counts a
local frame error and has no other effect. The empty response of the cut frame is the model's (log 8). -/
def Obligations.BadAndIncompleteRequestsTouchNoBlock : Prop :=
  (∀ (code : Octet) (s : State), PortOpen s → code.toNat = 0 ∨ 20 ≤ code.toNat →
    ∃ t, exec (.badRequest code) s = .next t ∧ OnlyAnswers [2] s t) ∧
  (∀ (octets : List Octet) (bits : Nat) (s : State), PortOpen s →
    (octets ≠ [] ∨ bits ≠ 0) → decodeRequest octets = .incomplete →
    ∃ t, exec (.incompleteRequest octets bits) s = .next t ∧
      t.port =
        { s.port with response := [],
                      frameErrors := if s.port.frameErrors = 65535 then 65535 else s.port.frameErrors + 1 } ∧
      ChangesOnly [.port] s t)

/-! ### The station's own transmissions -/

/-- R147, R145, R108, R126: an idle station whose transmitter offers starts the attempt of the first message that exists, in
the order reply, lowest slot, lowest context, BEACON, FIFO head; with none, or while an attempt runs, nothing happens. -/
def Obligations.TransmitAttemptOffersTheFirstMessageInOrder : Prop :=
  ∀ (s : State) (r : StartupRecord), s.station.startup = some r → TableLaw s →
    (s.transmitterOn = false ∨ s.span.attempt ≠ none → exec .transmitAttempt s = .next s) ∧
    (s.transmitterOn = true → s.span.attempt = none →
      (∀ reply rest, s.span.replies = reply :: rest →
        ∃ t, exec .transmitAttempt s = .next t ∧
          t.span =
            { s.span with
              replies := { reply with onWire := true } :: rest
              attempt := some ⟨.reply, ⟨⟨s.station.number, 0, s.station.epoch, reply.channel, reply.destination⟩,
                match reply.kind with
                | .hold => .hold | .admission next => .admission next | .deny reason => .deny reason | .left => .left
                | .cleanupLeave => .leave⟩⟩ } ∧
          ChangesOnly [.span] s t) ∧
      (s.span.replies = [] →
        (∀ i sl o, s.slotAt i = some sl → sl.owed = some o →
            (∀ j, j < i → ∀ sl', s.slotAt j = some sl' → sl'.owed = none) →
          ∃ t, exec .transmitAttempt s = .next t ∧
            t.span =
              { s.span with
                attempt := some ⟨.slot i, ⟨⟨s.station.number, 0, s.station.epoch, sl.channel, 0⟩,
                  match o.kind with
                  | .claim => .claim | .announce => .announce | .drain => .drain | .release => .release⟩⟩ } ∧
            t.slotAt i = some { sl with owed := some { o with onWire := true } } ∧ OtherSlots i s t ∧
            ChangesOnly [.span, .slots] s t) ∧
        ((∀ i sl, s.slotAt i = some sl → sl.owed = none) →
          (∀ i k o, s.contextAt i = some k → k.owed = some o →
              (∀ j, j < i → ∀ k', s.contextAt j = some k' → k'.owed = none) →
            ∃ t, exec .transmitAttempt s = .next t ∧
              t.span =
                { s.span with
                  attempt := some ⟨.context i, ⟨⟨s.station.number, 0, s.station.epoch, k.channel, o.destination⟩,
                    match o.kind with
                    | .join => .join | .leave => .leave | .drained => .drained⟩⟩ } ∧
              t.contextAt i = some { k with owed := some { o with onWire := true } } ∧ OtherContexts i s t ∧
              ChangesOnly [.span, .contexts] s t) ∧
          ((∀ i k, s.contextAt i = some k → k.owed = none) →
            (∀ b, s.station.beacon = some b →
              ∃ t, exec .transmitAttempt s = .next t ∧
                t.span =
                  { s.span with
                    attempt := some ⟨.beacon, ⟨⟨s.station.number, if b.departing then 1 else 0, s.station.epoch, 0, 0⟩,
                      .beacon r.presenceInterval⟩⟩ } ∧
                t.station = { s.station with beacon := some { b with onWire := true } } ∧
                ChangesOnly [.span, .station] s t) ∧
            (s.station.beacon = none →
              (∀ c q payload attempts wire purged rest,
                  s.store.fifo = .data c q payload attempts wire purged :: rest →
                ∃ t, exec .transmitAttempt s = .next t ∧
                  t.span =
                    { s.span with
                      attempt := some ⟨.fifo, ⟨⟨s.station.number, 0, s.station.epoch, c, 0⟩, .data q payload⟩⟩ } ∧
                  t.store = { s.store with fifo := .data c q payload attempts true purged :: rest } ∧
                  ChangesOnly [.span, .store] s t) ∧
              (s.store.fifo = [] → exec .transmitAttempt s = .next s))))))

/-- R131, R138: a lost contention leaves the message where it was and every count unchanged. That a reply or a DATA entry
which was overtaken on the wire leaves at this end too is the model's reading (log 10). -/
def Obligations.LostContentionLeavesTheMessageAndTheCounts : Prop :=
  ∀ (s : State) (a : Attempt), s.span.attempt = some a →
    (∀ i sl o, a.sender = .slot i → s.slotAt i = some sl → sl.owed = some o →
      ∃ t, exec .lostContention s = .next t ∧ t.span = { s.span with attempt := none } ∧
        t.slotAt i = some { sl with owed := some { o with onWire := false } } ∧ OtherSlots i s t ∧
        ChangesOnly [.span, .slots] s t) ∧
    (∀ i k o, a.sender = .context i → s.contextAt i = some k → k.owed = some o →
      ∃ t, exec .lostContention s = .next t ∧ t.span = { s.span with attempt := none } ∧
        t.contextAt i = some { k with owed := some { o with onWire := false } } ∧ OtherContexts i s t ∧
        ChangesOnly [.span, .contexts] s t) ∧
    (∀ b, a.sender = .beacon → s.station.beacon = some b →
      ∃ t, exec .lostContention s = .next t ∧ t.span = { s.span with attempt := none } ∧
        t.station = { s.station with beacon := some { b with onWire := false } } ∧
        ChangesOnly [.span, .station] s t) ∧
    (∀ r rest, a.sender = .reply → s.span.replies = r :: rest → r.onWire = true →
      ∃ t, exec .lostContention s = .next t ∧
        t.span =
          { s.span with attempt := none, replies := if r.overtaken then rest else { r with onWire := false } :: rest } ∧
        ChangesOnly [.span] s t) ∧
    (∀ c q payload attempts rest, a.sender = .fifo → s.store.fifo = .data c q payload attempts true false :: rest →
      ∃ t, exec .lostContention s = .next t ∧ t.span = { s.span with attempt := none } ∧
        t.store = { s.store with fifo := .data c q payload attempts false false :: rest } ∧
        ChangesOnly [.span, .store] s t) ∧
    (∀ c q payload attempts rest, a.sender = .fifo → s.store.fifo = .data c q payload attempts true true :: rest →
      ∃ t, exec .lostContention s = .next t ∧ t.span = { s.span with attempt := none } ∧
        t.store = { s.store with fifo := withoutHeadMarkers rest, free := s.store.free + 1 } ∧
        (∀ i, Consumed (headMarkers rest) s i → t.slotAt i = (s.slotAt i).map (SnapshotOf s)) ∧
        (∀ i, ¬ Consumed (headMarkers rest) s i → t.slotAt i = s.slotAt i) ∧
        ChangesOnly [.span, .store, .slots] s t)

/-- R139, R28, R36, R40, R18, R46, R51: the echo of a slot's message, by its kind and the slot's phase. -/
def Obligations.EchoOfASlotsMessageTakesItsOwnersRule : Prop :=
  ∀ (s : State) (a : Attempt) (i : Nat) (sl : Slot) (o : SlotOwed) (r : StartupRecord),
    s.span.attempt = some a → a.sender = .slot i → s.slotAt i = some sl → sl.owed = some o → o.onWire = true →
    s.station.startup = some r →
    (o.kind = .claim →
      ∃ t, exec .echo s = .next t ∧ t.span = { s.span with attempt := none, failures := 0 } ∧
        t.slotAt i = some { sl with owed := none, window := some r.claimWindow.toNat } ∧ OtherSlots i s t ∧
        ChangesOnly [.span, .slots] s t) ∧
    (o.kind = .drain ∨ (o.kind = .announce ∧ sl.phase ≠ .announcing) →
      ∃ t, exec .echo s = .next t ∧ t.span = { s.span with attempt := none, failures := 0 } ∧
        t.slotAt i = some { sl with owed := none } ∧ OtherSlots i s t ∧ ChangesOnly [.span, .slots] s t) ∧
    (o.kind = .announce → sl.phase = .announcing → s.station.mode ≠ .withdrawing →
      ∃ t, exec .echo s = .next t ∧ t.span = { s.span with attempt := none, failures := 0 } ∧
        t.slotAt i = some { sl with phase := .held, owed := none, transmitSequence := some 0, tag := none } ∧
        OtherSlots i s t ∧
        t.entry sl.channel =
          { s.entry sl.channel with view := .heldLocal, owner := some s.station.number, slotIndex := some i } ∧
        OtherEntries sl.channel s t ∧ Ended sl.tag { result := .ok } s t ∧
        ChangesOnly [.span, .slots, .channels, .port, .events] s t) ∧
    (o.kind = .announce → sl.phase = .announcing → s.station.mode = .withdrawing → headMarkers s.store.fifo = [] →
      ∃ t, exec .echo s = .next t ∧ t.span = { s.span with attempt := none, failures := 0 } ∧
        t.slotAt i = some
          (if s.store.fifo = [] then
            SnapshotOf s { sl with phase := .releasing, owed := none, transmitSequence := some 0, tag := none }
           else { sl with phase := .releasing, owed := none, transmitSequence := some 0, tag := none }) ∧
        OtherSlots i s t ∧
        t.entry sl.channel =
          { s.entry sl.channel with view := .releasing, owner := some s.station.number, slotIndex := some i } ∧
        OtherEntries sl.channel s t ∧
        t.store = { s.store with fifo := if s.store.fifo = [] then [] else s.store.fifo ++ [.marker sl.channel] } ∧
        Ended sl.tag { result := .ok } s t ∧
        ChangesOnly [.span, .slots, .channels, .store, .port, .events] s t) ∧
    (o.kind = .release →
      ∃ t, exec .echo s = .next t ∧
        t.span = { s.span with attempt := none, failures := 0, replies := RepliesPurged sl.channel s.span.replies } ∧
        t.slotAt i = none ∧ OtherSlots i s t ∧
        t.entry sl.channel = { s.entry sl.channel with view := .free, owner := none, slotIndex := none } ∧
        OtherEntries sl.channel s t ∧
        Ended sl.tag (if sl.forced then { result := .forced, count := sl.laggards } else { result := .ok }) s t ∧
        WithdrawalTested s t ∧ ChangesOnly [.span, .slots, .channels, .port, .events, .station] s t)

/-- R139, R69, R76, R60: the echo of a context's message. -/
def Obligations.EchoOfAContextsMessageTakesItsOwnersRule : Prop :=
  ∀ (s : State) (a : Attempt) (i : Nat) (k : Context) (o : ContextOwed) (r : StartupRecord),
    s.span.attempt = some a → a.sender = .context i → s.contextAt i = some k → k.owed = some o → o.onWire = true →
    s.station.startup = some r →
    ∃ t, exec .echo s = .next t ∧ t.span = { s.span with attempt := none, failures := 0 } ∧
      (∀ n, o.kind = .join ∨ o.kind = .leave → k.attemptsUsed = some n →
        t.contextAt i = some
          { k with owed := none, attemptsUsed := some (n + 1), responseTimer := some r.responseTimeout.toNat }) ∧
      (o.kind = .drained → t.contextAt i = some { k with owed := none, drainedSent := true }) ∧
      OtherContexts i s t ∧ ChangesOnly [.span, .contexts] s t

/-- R139, R126, R160, R161, R145, R109, R110, R45: the echo of a BEACON, of a reply and of a DATA entry; the drain
markers behind that entry are consumed, each with the drain snapshot of its slot. -/
def Obligations.EchoOfABeaconAReplyOrADataEntry : Prop :=
  ∀ (s : State) (a : Attempt), s.span.attempt = some a →
    (∀ b, a.sender = .beacon → s.station.beacon = some b → b.onWire = true → b.departing = false →
      ∃ t, exec .echo s = .next t ∧ t.span = { s.span with attempt := none, failures := 0 } ∧
        t.station = { s.station with beacon := none } ∧ ChangesOnly [.span, .station] s t) ∧
    (∀ b w, a.sender = .beacon → s.station.beacon = some b → b.onWire = true → b.departing = true →
        s.port.requests = [⟨w, .withdraw, none⟩] →
      ∃ t, exec .echo s = .next t ∧
        t.span = { s.span with attempt := none, failures := 0, replies := [], rate := none } ∧
        t.station = { s.station with mode := .detached, presence := none, listen := none, beacon := none } ∧
        (∀ x, t.peerAt x = none) ∧
        (∀ c, t.entry c =
          if (s.entry c).view = .heldRemote then { s.entry c with view := .free, owner := none, slotIndex := none }
          else s.entry c) ∧
        t.port = { s.port with requests := [] } ∧
        t.events =
          { s.events with
            records := s.events.records ++ [.completion ⟨w, .withdraw, .ok, none, none, none, false⟩] } ∧
        ChangesOnly [.span, .station, .peers, .channels, .port, .events] s t) ∧
    (∀ r rest, a.sender = .reply → s.span.replies = r :: rest → r.onWire = true →
      ∃ t, exec .echo s = .next t ∧ t.span = { s.span with attempt := none, failures := 0, replies := rest } ∧
        ChangesOnly [.span] s t) ∧
    (∀ c q payload attempts purged rest, a.sender = .fifo →
        s.store.fifo = .data c q payload attempts true purged :: rest →
      ∃ t, exec .echo s = .next t ∧ t.span = { s.span with attempt := none, failures := 0 } ∧
        t.store = { s.store with fifo := withoutHeadMarkers rest, free := s.store.free + 1 } ∧
        (∀ i, Consumed (headMarkers rest) s i → t.slotAt i = (s.slotAt i).map (SnapshotOf s)) ∧
        (∀ i, ¬ Consumed (headMarkers rest) s i → t.slotAt i = s.slotAt i) ∧
        ChangesOnly [.span, .store, .slots] s t)

/-- R142, R141: an attempt of a slot, a context or the BEACON whose owed instance no longer stands ends with its effect on
the consecutive-failure count alone. -/
def Obligations.OvertakenAttemptChangesTheFailureCountAlone : Prop :=
  ∀ (s : State) (a : Attempt) (cause : AttemptFailure), s.span.attempt = some a →
    ((∃ i, a.sender = .slot i ∧ ∀ sl o, s.slotAt i = some sl → sl.owed = some o → o.onWire = false) ∨
      (∃ i, a.sender = .context i ∧ ∀ k o, s.contextAt i = some k → k.owed = some o → o.onWire = false) ∨
      (a.sender = .beacon ∧ ∀ b, s.station.beacon = some b → b.onWire = false)) →
    exec .echo s = .next { s with span := { s.span with attempt := none, failures := 0 } } ∧
    (s.span.failures < 31 →
      exec (.failedAttempt cause) s =
        .next { s with span := { s.span with attempt := none, failures := s.span.failures + 1 } })

/-- R138, R140, R145, R109, R141: a failed attempt below the attempt limit leaves the message owed with one more attempt,
and counts one consecutive failure. -/
def Obligations.FailureBelowTheLimitKeepsTheMessage : Prop :=
  ∀ (s : State) (a : Attempt) (cause : AttemptFailure) (r : StartupRecord), s.span.attempt = some a →
    s.station.startup = some r → s.span.failures < 31 →
    (∀ i sl o, a.sender = .slot i → s.slotAt i = some sl → sl.owed = some o → o.onWire = true →
        o.attempts + 1 < r.attemptLimit.toNat →
      ∃ t, exec (.failedAttempt cause) s = .next t ∧
        t.span = { s.span with attempt := none, failures := s.span.failures + 1 } ∧
        t.slotAt i = some { sl with owed := some ⟨o.kind, o.attempts + 1, false⟩ } ∧ OtherSlots i s t ∧
        ChangesOnly [.span, .slots] s t) ∧
    (∀ i k o, a.sender = .context i → s.contextAt i = some k → k.owed = some o → o.onWire = true →
        o.attempts + 1 < r.attemptLimit.toNat →
      ∃ t, exec (.failedAttempt cause) s = .next t ∧
        t.span = { s.span with attempt := none, failures := s.span.failures + 1 } ∧
        t.contextAt i = some { k with owed := some ⟨o.kind, o.destination, o.attempts + 1, false⟩ } ∧
        OtherContexts i s t ∧ ChangesOnly [.span, .contexts] s t) ∧
    (∀ b, a.sender = .beacon → s.station.beacon = some b → b.onWire = true →
        b.attempts + 1 < r.attemptLimit.toNat →
      ∃ t, exec (.failedAttempt cause) s = .next t ∧
        t.span = { s.span with attempt := none, failures := s.span.failures + 1 } ∧
        t.station = { s.station with beacon := some ⟨b.departing, b.attempts + 1, false⟩ } ∧
        ChangesOnly [.span, .station] s t) ∧
    (∀ reply rest, a.sender = .reply → s.span.replies = reply :: rest → reply.onWire = true →
        reply.overtaken = false → reply.kind ≠ .cleanupLeave → reply.attempts + 1 < r.attemptLimit.toNat →
      ∃ t, exec (.failedAttempt cause) s = .next t ∧
        t.span =
          { s.span with attempt := none, failures := s.span.failures + 1,
                        replies := { reply with attempts := reply.attempts + 1, onWire := false } :: rest } ∧
        ChangesOnly [.span] s t) ∧
    (∀ c q payload attempts rest, a.sender = .fifo → s.store.fifo = .data c q payload attempts true false :: rest →
        attempts + 1 < r.attemptLimit.toNat →
      ∃ t, exec (.failedAttempt cause) s = .next t ∧
        t.span = { s.span with attempt := none, failures := s.span.failures + 1 } ∧
        t.store = { s.store with fifo := .data c q payload (attempts + 1) false false :: rest } ∧
        ChangesOnly [.span, .store] s t)

/-- R140 with R29, R37, R18, R46, R52, R69, R76, R60, R126, R160, R145, R79, R109, R110, R45: a failed attempt that brings the
message to its limit abandons it, and its owner's rule takes effect in the same step: a departing BEACON's withdrawal ends,
and the drain markers behind a DATA entry are consumed. -/
def Obligations.FailureAtTheLimitAbandonsTheMessage : Prop :=
  ∀ (s : State) (a : Attempt) (cause : AttemptFailure) (r : StartupRecord), s.span.attempt = some a →
    s.station.startup = some r → s.span.failures < 31 →
    (∀ i sl o, a.sender = .slot i → s.slotAt i = some sl → sl.owed = some o → o.onWire = true →
        r.attemptLimit.toNat ≤ o.attempts + 1 →
      (o.kind = .claim ∨ (o.kind = .announce ∧ sl.phase = .announcing) →
        ∃ t, exec (.failedAttempt cause) s = .next t ∧
          t.span = { s.span with attempt := none, failures := s.span.failures + 1 } ∧
          t.slotAt i = none ∧ OtherSlots i s t ∧
          t.entry sl.channel = { s.entry sl.channel with view := .free, owner := none, slotIndex := none } ∧
          OtherEntries sl.channel s t ∧ Ended sl.tag { result := .sendFailed } s t ∧ WithdrawalTested s t ∧
          ChangesOnly [.span, .slots, .channels, .port, .events, .station] s t) ∧
      (o.kind = .drain ∨ (o.kind = .announce ∧ sl.phase ≠ .announcing) →
        ∃ t, exec (.failedAttempt cause) s = .next t ∧
          t.span = { s.span with attempt := none, failures := s.span.failures + 1 } ∧
          t.slotAt i = some { sl with owed := none } ∧ OtherSlots i s t ∧ ChangesOnly [.span, .slots] s t) ∧
      (o.kind = .release →
        ∃ t, exec (.failedAttempt cause) s = .next t ∧
          t.span =
            { s.span with attempt := none, failures := s.span.failures + 1,
                          replies := RepliesPurged sl.channel s.span.replies } ∧
          t.slotAt i = none ∧ OtherSlots i s t ∧
          t.entry sl.channel = { s.entry sl.channel with view := .free, owner := none, slotIndex := none } ∧
          OtherEntries sl.channel s t ∧
          Ended sl.tag
            (if sl.forced then { result := .forced, count := sl.laggards, unannounced := true }
             else { result := .ok, unannounced := true }) s t ∧
          WithdrawalTested s t ∧ ChangesOnly [.span, .slots, .channels, .port, .events, .station] s t)) ∧
    (∀ i k o, a.sender = .context i → s.contextAt i = some k → k.owed = some o → o.onWire = true →
        r.attemptLimit.toNat ≤ o.attempts + 1 →
      ∃ t, exec (.failedAttempt cause) s = .next t ∧
        t.span = { s.span with attempt := none, failures := s.span.failures + 1 } ∧
        (∀ n, o.kind = .join ∨ o.kind = .leave → k.attemptsUsed = some n →
          t.contextAt i = some
            { k with owed := none, attemptsUsed := some (n + 1), responseTimer := some r.responseTimeout.toNat }) ∧
        (o.kind = .drained → t.contextAt i = some { k with owed := none }) ∧
        OtherContexts i s t ∧ ChangesOnly [.span, .contexts] s t) ∧
    (∀ b, a.sender = .beacon → s.station.beacon = some b → b.onWire = true → b.departing = false →
        r.attemptLimit.toNat ≤ b.attempts + 1 →
      ∃ t, exec (.failedAttempt cause) s = .next t ∧
        t.span = { s.span with attempt := none, failures := s.span.failures + 1 } ∧
        t.station = { s.station with beacon := none } ∧ ChangesOnly [.span, .station] s t) ∧
    (∀ b w, a.sender = .beacon → s.station.beacon = some b → b.onWire = true → b.departing = true →
        r.attemptLimit.toNat ≤ b.attempts + 1 → s.port.requests = [⟨w, .withdraw, none⟩] →
      ∃ t, exec (.failedAttempt cause) s = .next t ∧
        t.span = { s.span with attempt := none, failures := s.span.failures + 1, replies := [], rate := none } ∧
        t.station = { s.station with mode := .detached, presence := none, listen := none, beacon := none } ∧
        (∀ x, t.peerAt x = none) ∧
        (∀ c, t.entry c =
          if (s.entry c).view = .heldRemote then { s.entry c with view := .free, owner := none, slotIndex := none }
          else s.entry c) ∧
        t.port = { s.port with requests := [] } ∧
        t.events =
          { s.events with
            records := s.events.records ++ [.completion ⟨w, .withdraw, .ok, none, none, none, false⟩] } ∧
        ChangesOnly [.span, .station, .peers, .channels, .port, .events] s t) ∧
    (∀ reply rest, a.sender = .reply → s.span.replies = reply :: rest → reply.onWire = true →
        reply.overtaken = true ∨ reply.kind = .cleanupLeave ∨ r.attemptLimit.toNat ≤ reply.attempts + 1 →
      ∃ t, exec (.failedAttempt cause) s = .next t ∧
        t.span = { s.span with attempt := none, failures := s.span.failures + 1, replies := rest } ∧
        ChangesOnly [.span] s t) ∧
    (∀ c q payload attempts purged rest, a.sender = .fifo →
        s.store.fifo = .data c q payload attempts true purged :: rest →
        purged = true ∨ r.attemptLimit.toNat ≤ attempts + 1 →
      ∃ t, exec (.failedAttempt cause) s = .next t ∧
        t.span = { s.span with attempt := none, failures := s.span.failures + 1 } ∧
        t.store =
          { s.store with
            fifo := withoutHeadMarkers rest
            free := s.store.free + 1
            sendFailures :=
              if purged then s.store.sendFailures
              else if s.store.sendFailures = 65535 then 65535 else s.store.sendFailures + 1 } ∧
        (∀ i, Consumed (headMarkers rest) s i → t.slotAt i = (s.slotAt i).map (SnapshotOf s)) ∧
        (∀ i, ¬ Consumed (headMarkers rest) s i → t.slotAt i = s.slotAt i) ∧
        ChangesOnly [.span, .store, .slots] s t)

/-- R141, R160, R162: the failure that brings the count to 32 first has the effect u it has in the same station with a lower
count (its message retried or abandoned, with its owner's rule); if the station then still transmits, MUTED entry follows
from there, with reason SPAN_FAILURES; after a departing BEACON abandoned by it the station is DETACHED and stays so. -/
def Obligations.TheThirtySecondFailureMutesTheStation : Prop :=
  ∀ (s : State) (a : Attempt) (cause : AttemptFailure) (r : StartupRecord), s.span.attempt = some a →
    s.station.startup = some r → s.span.failures = 31 → s.transmitterOn = true →
    ((∀ b, a.sender = .beacon → s.station.beacon = some b → b.onWire = true → b.departing = false ∨
        b.attempts + 1 < r.attemptLimit.toNat) →
      ∃ u t, exec (.failedAttempt cause) { s with span := { s.span with failures := 0 } } = .next u ∧
        exec (.failedAttempt cause) s = .next t ∧
        Muted .spanFailures { u with span := { u.span with failures := 32 } } t ∧
        t.station.mode = .muted .spanFailures ∧ t.span.failures = 32 ∧
        t.span.attempt = none ∧ t.span.replies = [] ∧ (∀ i, t.slotAt i = none) ∧ (∀ i, t.contextAt i = none) ∧
        t.store.fifo = [] ∧ t.port.requests = [] ∧ t.station.presence = none ∧ t.station.listen = none ∧
        t.station.beacon = none ∧ t.peers = s.peers) ∧
    (∀ b w, a.sender = .beacon → s.station.beacon = some b → b.onWire = true → b.departing = true →
        r.attemptLimit.toNat ≤ b.attempts + 1 → s.port.requests = [⟨w, .withdraw, none⟩] →
      ∃ u t, exec (.failedAttempt cause) { s with span := { s.span with failures := 0 } } = .next u ∧
        exec (.failedAttempt cause) s = .next t ∧ t = { u with span := { u.span with failures := 32 } } ∧
        t.station.mode = .detached ∧ t.span.failures = 32 ∧ t.port.requests = [] ∧
        t.events.records = s.events.records ++ [.completion ⟨w, .withdraw, .ok, none, none, none, false⟩])

/-- R127, R157, R161, R162: the duplicate-number event, by the station state. -/
def Obligations.DuplicateNumberEventActsByTheStationState : Prop :=
  ∀ (s : State) (duplicates : Counter), s.span.attempt = none →
    duplicates = (if s.span.duplicates = 65535 then 65535 else s.span.duplicates + 1) →
    (s.station.mode = .detached → exec .duplicateNumberEvent s = .next s) ∧
    (∀ reason, s.station.mode = .muted reason →
      exec .duplicateNumberEvent s = .next { s with span := { s.span with duplicates := duplicates } }) ∧
    (∀ w, s.station.mode = .listening → s.port.requests = [⟨w, .attach, none⟩] →
      ∃ t, exec .duplicateNumberEvent s = .next t ∧
        t.station = { s.station with mode := .detached, presence := none, listen := none, beacon := none } ∧
        t.span = { s.span with duplicates := duplicates, replies := [], attempt := none, rate := none } ∧
        (∀ x, t.peerAt x = none) ∧
        (∀ c, t.entry c =
          if (s.entry c).view = .heldRemote then { s.entry c with view := .free, owner := none, slotIndex := none }
          else s.entry c) ∧
        t.port = { s.port with requests := [] } ∧
        t.events =
          { s.events with
            records := s.events.records ++
              [.completion ⟨w, .attach, .duplicate, none, some s.station.number, none, false⟩] } ∧
        ChangesOnly [.station, .span, .peers, .channels, .port, .events] s t) ∧
    (s.station.mode = .active ∨ s.station.mode = .withdrawing →
      ∃ t, exec .duplicateNumberEvent s = .next t ∧
        Muted .duplicateNumber { s with span := { s.span with duplicates := duplicates } } t)

/-! ### Messages heard -/

/-- R9, R84, R118, R135: an intact message of a peer is taken by the Peer Table, then by the Channel Table, then by the block
that consumes its kind; a BEACON by the Peer Table alone; with the receiver off nothing is taken. -/
def Obligations.MessagesGoToPeerTableChannelTableAndConsumer : Prop :=
  ∀ (h : Header) (b : Body) (s : State), IntactBody b →
    (s.receiverOn = false → exec (messageCommand h b) s = .next s) ∧
    (FromPeer s h → (∀ interval, b ≠ .beacon interval) →
      exec (messageCommand h b) s = .next (((s.peerTakes h b).channelTakes h b).consume h b)) ∧
    (FromPeer s h → ∀ interval, b = .beacon interval →
      exec (messageCommand h b) s = .next (s.peerTakes h b)) ∧
    (FromPeer s h → ∃ t, exec (messageCommand h b) s = .next t ∧ t.peers = (s.peerTakes h b).peers)

/-- R118 to R124: what an intact message of a peer does to the Peer Table: arrival, continued presence, epoch change, and, for
a departing BEACON, departure; for the kinds other than BEACON it is said of the state that the Channel Table takes the
message in (MessagesGoToPeerTableChannelTableAndConsumer). The peer timer's expiry is a departure with reason TIMEOUT; a
timer that a message taken first has restarted does not expire (R124), nor one with time left (log 5, the model's reading), and
an ABSENT entry has no timer. -/
def Obligations.MessagesAndThePeerTimerMoveThePeerTable : Prop :=
  (∀ (h : Header) (b : Body) (s s₁ : State), FromPeer s h → (∀ interval, b ≠ .beacon interval) → TableLaw s →
     s₁ = s.peerTakes h b →
     (s.peerAt h.source = none →
       s₁.peerAt h.source = some (ArrivedEntry s h none) ∧ OtherPeers h.source s s₁ ∧
         s₁.events = (Notified (.peerArrived h.source h.epoch) s).events ∧ ChangesOnly [.peers, .events] s s₁) ∧
     (∀ p, s.peerAt h.source = some p →
       (p.epoch = h.epoch →
         s₁.peerAt h.source = some (ArrivedEntry s h p.interval) ∧ OtherPeers h.source s s₁ ∧
           ChangesOnly [.peers] s s₁) ∧
       (p.epoch ≠ h.epoch →
         ∃ u, Departed h.source .restarted p.epoch s u ∧ s₁.peerAt h.source = some (ArrivedEntry s h none) ∧
           OtherPeers h.source u s₁ ∧ s₁.events = (Notified (.peerArrived h.source h.epoch) u).events ∧
           ChangesOnly [.peers, .events] u s₁))) ∧
  (∀ (h : Header) (interval : Octet) (s : State) (announced : Option Octet), FromPeer s h →
     announced = (if interval = 0 then none else some interval) →
     TableLaw s →
     (s.peerAt h.source = none → h.flags.getLsbD 0 = false →
       ∃ t, exec (.beaconMessage h interval) s = .next t ∧
         t.peerAt h.source = some (ArrivedEntry s h announced) ∧ OtherPeers h.source s t ∧
         t.events = (Notified (.peerArrived h.source h.epoch) s).events ∧ ChangesOnly [.peers, .events] s t) ∧
     (s.peerAt h.source = none → h.flags.getLsbD 0 = true → exec (.beaconMessage h interval) s = .next s) ∧
     (∀ p, s.peerAt h.source = some p →
       (h.flags.getLsbD 0 = true →
         ∃ t, exec (.beaconMessage h interval) s = .next t ∧ Departed h.source .departed p.epoch s t) ∧
       (h.flags.getLsbD 0 = false → p.epoch = h.epoch →
         ∃ t, exec (.beaconMessage h interval) s = .next t ∧
           t.peerAt h.source = some (ArrivedEntry s h (if interval = 0 then p.interval else some interval)) ∧
           OtherPeers h.source s t ∧ ChangesOnly [.peers] s t) ∧
       (h.flags.getLsbD 0 = false → p.epoch ≠ h.epoch →
         ∃ t u, exec (.beaconMessage h interval) s = .next t ∧ Departed h.source .restarted p.epoch s u ∧
           t.peerAt h.source = some (ArrivedEntry s h announced) ∧ OtherPeers h.source u t ∧
           t.events = (Notified (.peerArrived h.source h.epoch) u).events ∧ ChangesOnly [.peers, .events] u t))) ∧
  (∀ (x : Station) (s : State), TableLaw s →
     (s.peerAt x = none → exec (.peerTimerExpiry x) s = .next s) ∧
     (∀ p, s.peerAt x = some p →
       (p.timer = 0 → ∃ t, exec (.peerTimerExpiry x) s = .next t ∧ Departed x .timeout p.epoch s t) ∧
       (p.timer ≠ 0 → exec (.peerTimerExpiry x) s = .next s)))

/-- R13, R31, R34: a CLAIM from a peer, after the Peer Table has taken it. -/
def Obligations.ClaimMessageIsJudgedByTheChannelsView : Prop :=
  ∀ (h : Header) (s s₁ : State) (e : ChannelEntry), FromPeer s h → s₁ = s.peerTakes h .claim →
    e = s₁.entry h.channel →
    (∀ i sl, e.view = .claiming → e.slotIndex = some i → s₁.slotAt i = some sl → sl.channel = h.channel →
      (h.source.toNat < s₁.station.number.toNat →
        ∃ t, exec (.claimMessage h) s = .next t ∧ t.slotAt i = none ∧ OtherSlots i s₁ t ∧
          t.entry h.channel = { e with view := .free, owner := none, slotIndex := none } ∧
          OtherEntries h.channel s₁ t ∧
          Ended sl.tag { result := .lostContest, station := some h.source } s₁ t ∧ WithdrawalTested s₁ t ∧
          ChangesOnly [.slots, .channels, .port, .events, .station] s₁ t) ∧
      (s₁.station.number.toNat < h.source.toNat → exec (.claimMessage h) s = .next s₁)) ∧
    (e.view = .announcing ∨ e.view = .heldLocal ∨ e.view = .releasing →
      ∃ t, exec (.claimMessage h) s = .next t ∧ t.span = SpanAfterReply s₁ .hold h.channel h.source ∧
        ChangesOnly [.span] s₁ t) ∧
    (e.view = .free ∨ e.view = .heldRemote → exec (.claimMessage h) s = .next s₁)

/-- R10, R11, R14, R16, R17, R18, R30, R35, R45: what the Channel Table does with each of the six owner-indicating kinds, after the
Peer Table has taken the message: learning, owner change, yield, conflict loss (with the drain snapshots of the markers
that the purge brings to the FIFO's head) and conflict defence; for HOLD and ANNOUNCE this is all they do; the kinds that
indicate no owner leave the Channel Table to their consumer. -/
def Obligations.OwnerIndicatingMessagesTeachTheOwnerOrMeetTheConflictRule : Prop :=
  (∀ (h : Header) (b : Body) (s s₁ t : State) (e : ChannelEntry), FromPeer s h →
    (b = .hold ∨ b = .announce ∨ (∃ next, b = .admission next) ∨ b = .drain ∨ (∃ q payload, b = .data q payload) ∨
      b = .deny .releasing) →
    s₁ = s.peerTakes h b → e = s₁.entry h.channel → t = s₁.channelTakes h b →
    ((b = .hold → exec (.holdMessage h) s = .next t) ∧ (b = .announce → exec (.announceMessage h) s = .next t)) ∧
    (e.view = .free ∨ e.view = .heldRemote →
      ((∀ i k, e.contextIndex = some i → s₁.contextAt i = some k →
          k.state = .joining ∨ k.owner = some h.source) →
        t.entry h.channel = { e with view := .heldRemote, owner := some h.source, slotIndex := none } ∧
          OtherEntries h.channel s₁ t ∧ ChangesOnly [.channels] s₁ t) ∧
      (∀ i k, e.contextIndex = some i → s₁.contextAt i = some k → k.channel = h.channel → k.state ≠ .joining →
          k.owner ≠ some h.source →
        t.entry h.channel = { e with view := .heldRemote, owner := some h.source, slotIndex := none,
                                       subscription := .none, contextIndex := none } ∧
          OtherEntries h.channel s₁ t ∧ t.contextAt i = none ∧ OtherContexts i s₁ t ∧
          Ended k.tag { result := .ownerLost, station := some h.source }
            (Notified (.channelOrphaned h.channel .ownerChanged h.source) s₁) t ∧
          WithdrawalTested s₁ t ∧ ChangesOnly [.channels, .contexts, .station, .port, .events] s₁ t)) ∧
    (∀ i sl, e.slotIndex = some i → s₁.slotAt i = some sl → sl.channel = h.channel →
      (e.view = .claiming →
        t.slotAt i = none ∧ OtherSlots i s₁ t ∧
          t.entry h.channel = { e with view := .heldRemote, owner := some h.source, slotIndex := none } ∧
          OtherEntries h.channel s₁ t ∧
          Ended sl.tag { result := .heldByOther, station := some h.source } s₁ t ∧ WithdrawalTested s₁ t ∧
          ChangesOnly [.slots, .channels, .port, .events, .station] s₁ t) ∧
      (e.view = .announcing ∨ e.view = .heldLocal ∨ e.view = .releasing →
        (h.source.toNat < s₁.station.number.toNat →
          t.slotAt i = none ∧
            t.entry h.channel = { e with view := .heldRemote, owner := some h.source, slotIndex := none } ∧
            OtherEntries h.channel s₁ t ∧
            t.store =
              { s₁.store with
                fifo := withoutHeadMarkers (FifoPurged h.channel s₁.store.fifo)
                free := s₁.store.free +
                  (dataEntries s₁.store.fifo - dataEntries (FifoPurged h.channel s₁.store.fifo)) } ∧
            t.store.free + dataEntries t.store.fifo = s₁.store.free + dataEntries s₁.store.fifo ∧
            (∀ j, j ≠ i → Consumed (headMarkers (FifoPurged h.channel s₁.store.fifo)) s₁ j →
              t.slotAt j = (s₁.slotAt j).map (SnapshotOf s₁)) ∧
            (∀ j, j ≠ i → ¬ Consumed (headMarkers (FifoPurged h.channel s₁.store.fifo)) s₁ j →
              t.slotAt j = s₁.slotAt j) ∧
            t.span = { s₁.span with replies := RepliesPurged h.channel s₁.span.replies } ∧
            (sl.phase = .announcing →
              Ended sl.tag { result := .lostContest, station := some h.source } s₁ t) ∧
            (sl.phase ≠ .announcing →
              Ended sl.tag { result := .ownershipLost, station := some h.source }
                (Notified (.ownershipLost h.channel h.source) s₁) t) ∧
            WithdrawalTested s₁ t ∧
            ChangesOnly [.slots, .channels, .store, .span, .port, .events, .station] s₁ t) ∧
        (s₁.station.number.toNat < h.source.toNat →
          OtherSlots i s₁ t ∧ ChangesOnly [.slots] s₁ t ∧
            t.slotAt i = some
              (if sl.phase ≠ .announcing ∧ sl.owed = none then { sl with owed := some ⟨.announce, 0, false⟩ }
               else sl))))) ∧
  (∀ (h : Header) (b : Body) (s : State),
    (b = .claim ∨ b = .join ∨ b = .deny .notOwner ∨ b = .leave ∨ b = .left ∨ b = .drained) → s.channelTakes h b = s)

/-- R70, R71, R32: a JOIN from a peer, after the Peer Table has taken it, by its destination and the channel's view. -/
def Obligations.JoinMessageIsAdmittedDeniedOrIgnored : Prop :=
  ∀ (h : Header) (s s₁ : State) (e : ChannelEntry), FromPeer s h → s.station.number ≠ 0 → s₁ = s.peerTakes h .join →
    e = s₁.entry h.channel →
    (h.destination ≠ s₁.station.number → h.destination ≠ 0 → exec (.joinMessage h) s = .next s₁) ∧
    (h.destination = s₁.station.number ∨ h.destination = 0 →
      (∀ i sl q, e.view = .heldLocal → e.slotIndex = some i → s₁.slotAt i = some sl → sl.transmitSequence = some q →
        ∃ t, exec (.joinMessage h) s = .next t ∧
          t.slotAt i = some { sl with subscribers := addStation sl.subscribers h.source } ∧ OtherSlots i s₁ t ∧
          t.span =
            SpanAfterReply s₁
              (.admission ((s₁.store.fifo.findSome? fun entry =>
                match entry with
                | .data d n .. => if d = h.channel then some n else none
                | .marker _ => none).getD q)) h.channel h.source ∧
          ChangesOnly [.slots, .span] s₁ t) ∧
      (e.view = .releasing →
        ∃ t, exec (.joinMessage h) s = .next t ∧
          t.span = SpanAfterReply s₁ (.deny .releasing) h.channel h.source ∧ ChangesOnly [.span] s₁ t) ∧
      (e.view = .claiming ∨ e.view = .announcing → exec (.joinMessage h) s = .next s₁) ∧
      (e.view = .free ∨ e.view = .heldRemote → h.destination = 0 → exec (.joinMessage h) s = .next s₁) ∧
      (e.view = .free ∨ e.view = .heldRemote → h.destination = s₁.station.number →
        ∃ t, exec (.joinMessage h) s = .next t ∧
          t.span = SpanAfterReply s₁ (.deny .notOwner) h.channel h.source ∧ ChangesOnly [.span] s₁ t))

/-- R72, R79: an ADMIT, after the Peer Table and the Channel Table have taken it. That an ADMIT which itself ended a local view
in the Channel Table draws a cleanup LEAVE is the model's reading (log 12). -/
def Obligations.AdmitMessageJoinsTheContextOrDrawsACleanupLeave : Prop :=
  ∀ (h : Header) (next : Seq) (s s₁ : State), FromPeer s h →
    s₁ = (s.peerTakes h (.admission next)).channelTakes h (.admission next) →
    (h.destination ≠ s₁.station.number → exec (.admitMessage h next) s = .next s₁) ∧
    (h.destination = s₁.station.number →
      (∀ i k, (s₁.entry h.channel).contextIndex = some i → s₁.contextAt i = some k →
        (k.state = .joining →
          ∃ t, exec (.admitMessage h next) s = .next t ∧
            t.contextAt i = some
              { k with state := .joined, owner := some h.source, expected := some next, owed := none,
                       attemptsUsed := none, responseTimer := none, tag := none } ∧
            OtherContexts i s₁ t ∧
            t.entry h.channel = { s₁.entry h.channel with subscription := .joined, contextIndex := some i } ∧
            OtherEntries h.channel s₁ t ∧ Ended k.tag { result := .ok, station := some h.source } s₁ t ∧
            ChangesOnly [.contexts, .channels, .port, .events] s₁ t) ∧
        (k.state ≠ .joining → exec (.admitMessage h next) s = .next s₁)) ∧
      ((s₁.entry h.channel).contextIndex = none →
        ((s₁.entry h.channel).view = .free ∨ (s₁.entry h.channel).view = .heldRemote →
          ∃ t, exec (.admitMessage h next) s = .next t ∧
            t.span = SpanAfterReply s₁ .cleanupLeave h.channel h.source ∧ ChangesOnly [.span] s₁ t) ∧
        ((s₁.entry h.channel).view.isLocal = true → exec (.admitMessage h next) s = .next s₁)))

/-- R73, R15, R134: a DENY, after the Peer Table and the Channel Table have taken it, by its reason and the context; a reason
octet that is neither 1 nor 2 makes it malformed. -/
def Obligations.DenyMessageEndsOrReaddressesTheJoin : Prop :=
  (∀ (h : Header) (reason : Octet) (s : State), s.receiverOn = true → reason ≠ 1 → reason ≠ 2 →
    ∃ t, exec (.denyMessage h reason) s = .next t ∧
      t.span = { s.span with malformed := if s.span.malformed = 65535 then 65535 else s.span.malformed + 1 } ∧
      ChangesOnly [.span] s t) ∧
  (∀ (h : Header) (s s₁ : State), FromPeer s h →
    s₁ = (s.peerTakes h (.deny .releasing)).channelTakes h (.deny .releasing) →
    (h.destination ≠ s₁.station.number → exec (.denyMessage h 1) s = .next s₁) ∧
    ((s₁.entry h.channel).contextIndex = none → exec (.denyMessage h 1) s = .next s₁) ∧
    (∀ i k, h.destination = s₁.station.number → (s₁.entry h.channel).contextIndex = some i →
        s₁.contextAt i = some k → k.channel = h.channel →
      (k.state = .joining →
        ∃ t, exec (.denyMessage h 1) s = .next t ∧ t.contextAt i = none ∧ OtherContexts i s₁ t ∧
          t.entry h.channel = { s₁.entry h.channel with subscription := .none, contextIndex := none } ∧
          OtherEntries h.channel s₁ t ∧ Ended k.tag { result := .denied, station := some h.source } s₁ t ∧
          WithdrawalTested s₁ t ∧ ChangesOnly [.contexts, .channels, .port, .events, .station] s₁ t) ∧
      (k.state ≠ .joining → exec (.denyMessage h 1) s = .next s₁))) ∧
  (∀ (h : Header) (s s₁ : State) (r : StartupRecord), FromPeer s h → s₁ = s.peerTakes h (.deny .notOwner) →
    s₁.station.startup = some r →
    (h.destination ≠ s₁.station.number → exec (.denyMessage h 2) s = .next s₁) ∧
    ((s₁.entry h.channel).contextIndex = none → exec (.denyMessage h 2) s = .next s₁) ∧
    (∀ i k, h.destination = s₁.station.number → (s₁.entry h.channel).contextIndex = some i →
        s₁.contextAt i = some k → k.channel = h.channel →
      (k.state ≠ .joining ∨ (s₁.entry h.channel).view ≠ .heldRemote ∨
          (s₁.entry h.channel).owner ≠ some h.source → exec (.denyMessage h 2) s = .next s₁) ∧
      (k.state = .joining → (s₁.entry h.channel).view = .heldRemote →
          (s₁.entry h.channel).owner = some h.source →
        (∀ n, k.attemptsUsed = some n → r.attemptLimit.toNat ≤ n →
          ∃ t, exec (.denyMessage h 2) s = .next t ∧ t.contextAt i = none ∧ OtherContexts i s₁ t ∧
            t.entry h.channel =
              { s₁.entry h.channel with view := .free, owner := none, slotIndex := none,
                                        subscription := .none, contextIndex := none } ∧
            OtherEntries h.channel s₁ t ∧ Ended k.tag { result := .noOwner } s₁ t ∧ WithdrawalTested s₁ t ∧
            ChangesOnly [.contexts, .channels, .port, .events, .station] s₁ t) ∧
        (∀ n, k.attemptsUsed = some n → n < r.attemptLimit.toNat →
          ∃ t, exec (.denyMessage h 2) s = .next t ∧
            t.entry h.channel =
              { s₁.entry h.channel with view := .free, owner := none, slotIndex := none } ∧
            OtherEntries h.channel s₁ t ∧
            ((∃ o, k.owed = some o ∧ o.onWire = true) → t.contextAt i = some k) ∧
            ((∀ o, k.owed = some o → o.onWire = false) →
              t.contextAt i = some { k with responseTimer := none, owed := some ⟨.join, 0, 0, false⟩ }) ∧
            OtherContexts i s₁ t ∧ ChangesOnly [.contexts, .channels] s₁ t))))

/-- R32, R49, R54, R77, R78: a LEAVE and a LEFT from a peer, after the Peer Table has taken them. -/
def Obligations.LeaveAndLeftMessagesEndSubscriptions : Prop :=
  (∀ (h : Header) (s s₁ : State) (e : ChannelEntry), FromPeer s h → s.station.number ≠ 0 →
    s₁ = s.peerTakes h .leave → e = s₁.entry h.channel →
    (h.destination ≠ s₁.station.number → h.destination ≠ 0 → exec (.leaveMessage h) s = .next s₁) ∧
    (∀ i sl, h.destination = s₁.station.number ∨ h.destination = 0 → e.view = .heldLocal ∨ e.view = .releasing →
        e.slotIndex = some i → s₁.slotAt i = some sl →
      ∃ t, exec (.leaveMessage h) s = .next t ∧ t.slotAt i = some (SlotLeftBy h.source sl) ∧ OtherSlots i s₁ t ∧
        t.span = SpanAfterReply s₁ .left h.channel h.source ∧ ChangesOnly [.slots, .span] s₁ t) ∧
    (e.view = .claiming ∨ e.view = .announcing ∨ e.view = .free ∨ e.view = .heldRemote →
      (h.destination = s₁.station.number →
        ∃ t, exec (.leaveMessage h) s = .next t ∧ t.span = SpanAfterReply s₁ .left h.channel h.source ∧
          ChangesOnly [.span] s₁ t) ∧
      (h.destination = 0 → exec (.leaveMessage h) s = .next s₁))) ∧
  (∀ (h : Header) (s s₁ : State), FromPeer s h → s₁ = s.peerTakes h .left →
    (h.destination ≠ s₁.station.number ∨ (s₁.entry h.channel).contextIndex = none →
      exec (.leftMessage h) s = .next s₁) ∧
    (∀ i k, h.destination = s₁.station.number → (s₁.entry h.channel).contextIndex = some i →
        s₁.contextAt i = some k → k.channel = h.channel →
      (k.state ≠ .leaving ∨ k.owner ≠ some h.source → exec (.leftMessage h) s = .next s₁) ∧
      (k.state = .leaving → k.owner = some h.source →
        ∃ t, exec (.leftMessage h) s = .next t ∧ t.contextAt i = none ∧ OtherContexts i s₁ t ∧
          t.entry h.channel = { s₁.entry h.channel with subscription := .none, contextIndex := none } ∧
          OtherEntries h.channel s₁ t ∧ Ended k.tag { result := .ok } s₁ t ∧ WithdrawalTested s₁ t ∧
          ChangesOnly [.contexts, .channels, .port, .events, .station] s₁ t)))

/-- R48, R49, R57, R58: a DRAIN, after the Peer Table and the Channel Table have taken it, and a DRAINED, after the Peer Table
has taken it. -/
def Obligations.DrainAndDrainedMessagesCarryTheDrain : Prop :=
  (∀ (h : Header) (s s₁ : State) (r : StartupRecord), FromPeer s h →
    s₁ = (s.peerTakes h .drain).channelTakes h .drain → s₁.station.startup = some r →
    ((s₁.entry h.channel).contextIndex = none → exec (.drainMessage h) s = .next s₁) ∧
    (∀ i k, (s₁.entry h.channel).contextIndex = some i → s₁.contextAt i = some k → k.channel = h.channel →
      (k.owner ≠ some h.source ∨ k.state = .leaving ∨ k.state = .joining →
        exec (.drainMessage h) s = .next s₁) ∧
      (k.owner = some h.source → k.state = .joined →
        ∃ t, exec (.drainMessage h) s = .next t ∧
          t.entry h.channel = { s₁.entry h.channel with subscription := .draining, contextIndex := some i } ∧
          OtherEntries h.channel s₁ t ∧
          ((s₁.entry h.channel).queued ≠ 0 →
            t.contextAt i = some
              { k with state := .draining, drainedSent := false, drainWait := some (2 * (10 * r.drainTimeout.toNat)) }) ∧
          ((s₁.entry h.channel).queued = 0 → k.owed = none →
            t.contextAt i = some
              { k with state := .draining, drainedSent := false, drainWait := some (2 * (10 * r.drainTimeout.toNat)),
                       owed := some ⟨.drained, h.source, 0, false⟩ }) ∧
          OtherContexts i s₁ t ∧ ChangesOnly [.contexts, .channels] s₁ t) ∧
      (k.owner = some h.source → k.state = .draining →
        ∃ t, exec (.drainMessage h) s = .next t ∧
          t.contextAt i = some
            (if (s₁.entry h.channel).queued = 0 ∧ ¬ (∃ o, k.owed = some o ∧ o.kind = .drained) then
              { k with owed := some ⟨.drained, h.source, 0, false⟩ }
             else k) ∧
          OtherContexts i s₁ t ∧ ChangesOnly [.contexts] s₁ t))) ∧
  (∀ (h : Header) (s s₁ : State), FromPeer s h → s₁ = s.peerTakes h .drained →
    (h.destination ≠ s₁.station.number ∨ (s₁.entry h.channel).slotIndex = none →
      exec (.drainedMessage h) s = .next s₁) ∧
    (∀ i sl, h.destination = s₁.station.number → (s₁.entry h.channel).slotIndex = some i → s₁.slotAt i = some sl →
      (sl.phase ≠ .releasing ∨ hasStation sl.awaited h.source = false →
        ∃ t, exec (.drainedMessage h) s = .next t ∧ (∀ j, t.slotAt j = s₁.slotAt j) ∧ ChangesOnly [.slots] s₁ t) ∧
      (sl.phase = .releasing → hasStation sl.awaited h.source = true →
        ∃ t, exec (.drainedMessage h) s = .next t ∧
          t.slotAt i = some
            (if removeStation sl.awaited h.source = 0 then
              { sl with awaited := 0, drainTimer := none, resendTimer := none, owed := some ⟨.release, 0, false⟩ }
             else { sl with awaited := removeStation sl.awaited h.source }) ∧
          OtherSlots i s₁ t ∧ ChangesOnly [.slots] s₁ t)))

/-- R12, R62: a RELEASE from a peer, after the Peer Table has taken it: the view of its owner becomes FREE, and the
subscription to that owner ends. -/
def Obligations.ReleaseMessageFreesTheViewAndEndsTheSubscription : Prop :=
  ∀ (h : Header) (s s₁ : State) (e : ChannelEntry), FromPeer s h → s₁ = s.peerTakes h .release →
    e = (if (s₁.entry h.channel).view = .heldRemote ∧ (s₁.entry h.channel).owner = some h.source then
          { s₁.entry h.channel with view := .free, owner := none, slotIndex := none }
         else s₁.entry h.channel) →
    (e.contextIndex = none →
      ∃ t, exec (.releaseMessage h) s = .next t ∧ t.entry h.channel = e ∧ OtherEntries h.channel s₁ t ∧
        ChangesOnly [.channels] s₁ t) ∧
    (∀ i k, e.contextIndex = some i → s₁.contextAt i = some k → k.channel = h.channel →
      (k.state = .joining ∨ k.owner ≠ some h.source →
        ∃ t, exec (.releaseMessage h) s = .next t ∧ t.entry h.channel = e ∧ OtherEntries h.channel s₁ t ∧
          ChangesOnly [.channels] s₁ t) ∧
      (k.state ≠ .joining → k.owner = some h.source →
        ∃ t, exec (.releaseMessage h) s = .next t ∧
          t.entry h.channel = { e with subscription := .none, contextIndex := none } ∧ OtherEntries h.channel s₁ t ∧
          t.contextAt i = none ∧ OtherContexts i s₁ t ∧
          Ended k.tag { result := .ok }
            (Notified (.channelReleased h.channel (if k.drainedSent then .normal else .undrained) h.source) s₁) t ∧
          WithdrawalTested s₁ t ∧ ChangesOnly [.channels, .contexts, .station, .port, .events] s₁ t))

/-- R80, R85 to R94, R96: a DATA cell, after the Peer Table and the Channel Table have taken it: the sequence check, and then
the first step of the classification whose condition holds. -/
def Obligations.DataMessageIsClassifiedInOrder : Prop :=
  ∀ (h : Header) (q : Seq) (payload : List Octet) (s s₁ : State), FromPeer s h →
    1 ≤ payload.length → payload.length ≤ 64 →
    s₁ = (s.peerTakes h (.data q payload)).channelTakes h (.data q payload) →
    (∀ i k expected, (s₁.entry h.channel).contextIndex = some i → s₁.contextAt i = some k →
        k.state = .joined ∨ k.state = .leaving → k.owner = some h.source → k.expected = some expected →
        128 ≤ (q - expected).toNat →
      ∃ t, exec (.dataMessage h q (BitVec.ofNat 8 payload.length) payload) s = .next t ∧
        t.classifier =
          { s₁.classifier with
            stray := if s₁.classifier.stray = 65535 then 65535 else s₁.classifier.stray + 1 } ∧
        ChangesOnly [.classifier] s₁ t) ∧
    (∀ (s₂ : State) (missing : Option Nat),
      ((∃ i k expected, (s₁.entry h.channel).contextIndex = some i ∧ s₁.contextAt i = some k ∧
          (k.state = .joined ∨ k.state = .leaving) ∧ k.owner = some h.source ∧ k.expected = some expected ∧
          (q - expected).toNat < 128 ∧ missing = some (q - expected).toNat ∧
          s₂ = s₁.putContext i { k with expected := some (q + 1) }) ∨
       ((∀ i k, (s₁.entry h.channel).contextIndex = some i → s₁.contextAt i = some k →
          ¬ ((k.state = .joined ∨ k.state = .leaving) ∧ k.owner = some h.source)) ∧
          missing = none ∧ s₂ = s₁)) →
      ∃ t, exec (.dataMessage h q (BitVec.ofNat 8 payload.length) payload) s = .next t ∧
        ((s₂.entry h.channel).discard = true → t = s₂) ∧
        ((s₂.entry h.channel).discard = false →
          ((s₂.entry h.channel).trap = true →
            Offered .qm ⟨h.channel, h.source, q, missing, .channelTrap, payload⟩ s₂ t) ∧
          ((s₂.entry h.channel).trap = false →
            (∀ f, LowestMatch s₂ h.channel payload f →
              Offered .qm ⟨h.channel, h.source, q, missing, .filter f, payload⟩ s₂ t) ∧
            (NoMatch s₂ h.channel payload →
              (missing ≠ none →
                Offered (DeliveryQueue (s₂.entry h.channel).group)
                  ⟨h.channel, h.source, q, missing, .delivered, payload⟩ s₂ t) ∧
              (missing = none →
                ((∃ i k, (s₂.entry h.channel).contextIndex = some i ∧ s₂.contextAt i = some k ∧ k.state = .draining) →
                  t.classifier =
                      { s₂.classifier with
                        stray := if s₂.classifier.stray = 65535 then 65535 else s₂.classifier.stray + 1 } ∧
                    ChangesOnly [.classifier] s₂ t) ∧
                ((∀ i k, (s₂.entry h.channel).contextIndex = some i → s₂.contextAt i = some k → k.state ≠ .draining) →
                  t = s₂))))))

/-- R134, R135: a malformed message is counted while the receiver is on, and reaches no other block; so are a message with
a source of 0 or 63, an epoch of 0, or a DATA length that is not its payload's or not 1 to 64. -/
def Obligations.MalformedMessagesAreCountedAndReachNoOtherBlock : Prop :=
  ∀ (s : State) (c : Instr),
    ((∃ octets, c = .malformedMessage octets ∧ parseMessage octets = none) ∨
      (∃ h b, c = messageCommand h b ∧ IntactBody b ∧ (h.source = 0 ∨ h.source = 63 ∨ h.epoch = 0)) ∨
      (∃ (h : Header) (q : Seq) (length : Octet) (payload : List Octet), c = .dataMessage h q length payload ∧
        (length.toNat = 0 ∨ 64 < length.toNat ∨ payload.length ≠ length.toNat))) →
    (s.receiverOn = false → exec c s = .next s) ∧
    (s.receiverOn = true →
      ∃ t, exec c s = .next t ∧
        t.span = { s.span with malformed := if s.span.malformed = 65535 then 65535 else s.span.malformed + 1 } ∧
        ChangesOnly [.span] s t)

/-! ### Timers -/

/-- R33, R47, R50, R190: the expiries of a slot's three timers; a timer that does not run, or has time left, does not expire (the
model's reading of R190, log 5). -/
def Obligations.SlotTimerExpiriesMoveTheClaimAndTheDrain : Prop :=
  ∀ (i : Fin 32) (s : State) (sl : Slot) (r : StartupRecord), s.slotAt i = some sl → s.station.startup = some r →
    (sl.phase = .claiming → sl.window = some 0 →
      ∃ t, exec (.claimWindowExpiry i) s = .next t ∧
        t.slotAt i = some { sl with phase := .announcing, window := none, owed := some ⟨.announce, 0, false⟩ } ∧
        OtherSlots i s t ∧
        t.entry sl.channel =
          { s.entry sl.channel with view := .announcing, owner := some s.station.number, slotIndex := some i.val } ∧
        OtherEntries sl.channel s t ∧ ChangesOnly [.slots, .channels] s t) ∧
    (sl.resendTimer = some 0 →
      ∃ t, exec (.resendTimerExpiry i) s = .next t ∧
        t.slotAt i = some
          { sl with
            resendTimer := some r.responseTimeout.toNat
            owed := if sl.owed = none ∨ (∃ o, sl.owed = some o ∧ o.kind = .announce) then some ⟨.drain, 0, false⟩
                    else sl.owed } ∧
        OtherSlots i s t ∧ ChangesOnly [.slots] s t) ∧
    (sl.drainTimer = some 0 →
      ∃ t, exec (.drainTimerExpiry i) s = .next t ∧
        t.slotAt i = some
          { sl with forced := true, laggards := some (stationCount sl.awaited), awaited := 0, drainTimer := none,
                    resendTimer := none, owed := some ⟨.release, 0, false⟩ } ∧
        OtherSlots i s t ∧ ChangesOnly [.slots] s t) ∧
    (sl.window ≠ some 0 → exec (.claimWindowExpiry i) s = .next s) ∧
    (sl.resendTimer ≠ some 0 → exec (.resendTimerExpiry i) s = .next s) ∧
    (sl.drainTimer ≠ some 0 → exec (.drainTimerExpiry i) s = .next s)

/-- R63, R69, R76, R15, R190: the expiries of a context's timers; a timer that does not run, or has time left, does not
expire (the model's reading of R190, log 5). -/
def Obligations.ContextTimerExpiriesRetryOrEndTheExchange : Prop :=
  ∀ (i : Fin 64) (s : State) (k : Context) (r : StartupRecord), s.contextAt i = some k → s.station.startup = some r →
    (∀ used, k.state = .joining → k.responseTimer = some 0 → k.attemptsUsed = some used →
      (used < r.attemptLimit.toNat →
        ∃ t, exec (.joinResponseTimerExpiry i) s = .next t ∧
          (∀ destination,
            (((s.entry k.channel).view ≠ .heldRemote ∧ destination = 0) ∨
              ((s.entry k.channel).view = .heldRemote ∧ (s.entry k.channel).owner = some destination)) →
            t.contextAt i = some { k with responseTimer := none, owed := some ⟨.join, destination, 0, false⟩ }) ∧
          OtherContexts i s t ∧ ChangesOnly [.contexts] s t) ∧
      (r.attemptLimit.toNat ≤ used →
        ∃ t, exec (.joinResponseTimerExpiry i) s = .next t ∧ t.contextAt i = none ∧ OtherContexts i s t ∧
          t.entry k.channel = { s.entry k.channel with subscription := .none, contextIndex := none } ∧
          OtherEntries k.channel s t ∧ Ended k.tag { result := .noOwner } s t ∧ WithdrawalTested s t ∧
          ChangesOnly [.contexts, .channels, .port, .events, .station] s t)) ∧
    (∀ used owner, k.state = .leaving → k.responseTimer = some 0 → k.attemptsUsed = some used →
        k.owner = some owner →
      (used < r.attemptLimit.toNat →
        ∃ t, exec (.leaveResponseTimerExpiry i) s = .next t ∧
          t.contextAt i = some { k with responseTimer := none, owed := some ⟨.leave, owner, 0, false⟩ } ∧
          OtherContexts i s t ∧ ChangesOnly [.contexts] s t) ∧
      (r.attemptLimit.toNat ≤ used →
        ∃ t, exec (.leaveResponseTimerExpiry i) s = .next t ∧ t.contextAt i = none ∧ OtherContexts i s t ∧
          t.entry k.channel = { s.entry k.channel with subscription := .none, contextIndex := none } ∧
          OtherEntries k.channel s t ∧ Ended k.tag { result := .unconfirmed } s t ∧ WithdrawalTested s t ∧
          ChangesOnly [.contexts, .channels, .port, .events, .station] s t)) ∧
    (∀ owner, k.state = .draining → k.drainWait = some 0 → k.owner = some owner →
      ∃ t, exec (.drainWaitTimerExpiry i) s = .next t ∧ t.contextAt i = none ∧ OtherContexts i s t ∧
        t.entry k.channel =
          { s.entry k.channel with view := .free, owner := none, slotIndex := none, subscription := .none,
                                   contextIndex := none } ∧
        OtherEntries k.channel s t ∧ t.events = (Notified (.channelReleased k.channel .implied owner) s).events ∧
        WithdrawalTested s t ∧ ChangesOnly [.contexts, .channels, .events, .station] s t) ∧
    (k.responseTimer ≠ some 0 →
      exec (.joinResponseTimerExpiry i) s = .next s ∧ exec (.leaveResponseTimerExpiry i) s = .next s) ∧
    (k.drainWait ≠ some 0 → exec (.drainWaitTimerExpiry i) s = .next s)

/-- R125, R126, R156, R190: the expiries of the presence timer and of the listen timer; a timer that does not run, or has time
left, does not expire (the model's reading of R190, log 5). -/
def Obligations.PresenceAndListenTimerExpiries : Prop :=
  ∀ (s : State) (r : StartupRecord), s.station.startup = some r →
    (s.station.presence = some 0 →
      ∃ t, exec .presenceTimerExpiry s = .next t ∧
        t.station =
          { s.station with
            presence := some (10 * r.presenceInterval.toNat)
            beacon := if s.station.beacon = none then some ⟨false, 0, false⟩ else s.station.beacon } ∧
        ChangesOnly [.station] s t) ∧
    (s.station.presence ≠ some 0 → exec .presenceTimerExpiry s = .next s) ∧
    (∀ w, s.station.mode = .listening → s.station.listen = some 0 → s.port.requests = [⟨w, .attach, none⟩] →
      ∃ t, exec .listenTimerExpiry s = .next t ∧
        t.station = { s.station with mode := .active, listen := none } ∧
        t.port = { s.port with requests := [] } ∧
        t.events =
          { s.events with
            records := s.events.records ++ [.completion ⟨w, .attach, .ok, none, none, none, false⟩] } ∧
        ChangesOnly [.station, .port, .events] s t) ∧
    (s.station.mode ≠ .listening ∨ s.station.listen ≠ some 0 → exec .listenTimerExpiry s = .next s)

/-! ### Laws every step keeps -/

/-- R144, R175, R180, R141, R147: the capacities of the Event Queue, the Pending Request Table and the reply queue are never
exceeded; the consecutive-failure count stays within 32, and no drain marker stands at the FIFO's head. -/
def Obligations.EveryStepKeepsTheCapacityLaws : Prop :=
  ∀ s t : State, step s = .next t →
    (EventLaw s → EventLaw t) ∧ (RequestLaw s → RequestLaw t) ∧ (ReplyLaw s → ReplyLaw t) ∧ (SpanLaw s → SpanLaw t)

/-- R7, R99, R101, R107: free buffers, buffers of descriptors and buffers of DATA entries always add to 256; no receive queue
exceeds its limit, and the DATA entries never exceed the transmit data limit; every queued count is the number of the
channel's descriptors in the five queues. -/
def Obligations.EveryStepKeepsTheBuffersTheQueueLimitsAndTheQueuedCounts : Prop :=
  ∀ s t : State, step s = .next t →
    (BufferLaw s → BufferLaw t) ∧ (LimitLaw s → LimitLaw t) ∧ (QueuedLaw s → QueuedLaw t)

/-- R18, R23, R43, R44, R45, R107: the slots' sets, owed messages and timers and the drain markers of the FIFO always agree. -/
def Obligations.EveryStepKeepsTheDrainLaw : Prop :=
  ∀ s t : State, TableLaw s ∧ OwnershipLaw s ∧ SubscriptionLaw s ∧ DrainLaw s → step s = .next t → DrainLaw t

/-- R1, R2, R4, R5, R24, R66, R175: Channel Table, slots and contexts always agree, the tables keep their canonical form, and
then pending requests and the work they name agree too. -/
def Obligations.EveryStepKeepsTablesWorkAndRequestsInAgreement : Prop :=
  ∀ s t : State, TableLaw s ∧ OwnershipLaw s ∧ SubscriptionLaw s → step s = .next t →
    (TableLaw t ∧ OwnershipLaw t ∧ SubscriptionLaw t) ∧ (RequestLaw s → WorkLaw s → WorkLaw t)

/-- R150, R159, R175, R189: over tables in their canonical form, which every step keeps, what the station holds always agrees
with its state; and while RSTn is asserted it is in its initial state. -/
def Obligations.EveryStepKeepsTheStationStateLaw : Prop :=
  ∀ s t : State, step s = .next t →
    (TableLaw s ∧ RequestLaw s ∧ ModeLaw s → TableLaw t ∧ RequestLaw t ∧ ModeLaw t) ∧ (ResetLaw s → ResetLaw t)

/-- The laws hold at reset (R165). -/
def Obligations.LawsHoldAtReset : Prop :=
  EventLaw State.reset ∧ RequestLaw State.reset ∧ ReplyLaw State.reset ∧ BufferLaw State.reset ∧
    LimitLaw State.reset ∧ QueuedLaw State.reset ∧ SpanLaw State.reset ∧ TableLaw State.reset ∧
    OwnershipLaw State.reset ∧ SubscriptionLaw State.reset ∧ WorkLaw State.reset ∧ ModeLaw State.reset ∧
    DrainLaw State.reset ∧ ResetLaw State.reset

/-! ### Formats -/

/-- R132, R133, R134: a receiver takes octets as a message exactly when they are that message's octets and the message is
intact, so that no bit of the format is dropped. -/
def Obligations.ReceiverReadsExactlyTheOctetsOfAMessage : Prop :=
  ∀ (octets : List Octet) (m : Message),
    parseMessage octets = some m ↔ octets = m.octets ∧ m.header.valid = true ∧ IntactBody m.body

/-- R167, R169, R171: the octets of a request's frame, whatever octets follow, are read as that request, and every proper
prefix of the frame is an incomplete request. -/
def Obligations.RequestFramesDecodeToTheirRequests : Prop :=
  ∀ (c : Instr) (frame : List Octet), encodeRequest c = some frame → c.wellFormed = true →
    (∀ more, decodeRequest (frame ++ more) = .request c) ∧
    (∀ n, n < frame.length → decodeRequest (frame.take n) = .incomplete)

/-- R132, R171: a few frames written out octet by octet: the frames of 10_the_local_port.md section 10.7, and a HOLD. -/
def Obligations.FramesOfTheManualReadAsTheirCommands : Prop :=
  decodeRequest [6, 4, 1, 44] = .request (.claimRequest 4 300) ∧
    decodeRequest [6, 9, 1, 44] = .request (.claimRequest 9 300) ∧
    decodeRequest [18, 0] = .request (.readEvent 0) ∧
    (⟨⟨12, 0, 3, 300, 20⟩, .hold⟩ : Message).octets.take 5 = [0x0C, 0x20, 0x03, 0x4B, 0x14] ∧
    checkOf [0x31, 0x32, 0x33, 0x34, 0x35, 0x36, 0x37, 0x38, 0x39] = 0x29B1
end

