-- ==== Sys2Proof/Laws/FMap.lean ====
section
/-! SUPPORT. Laws of the keyed tables: what a lookup gives after each operation, and that the canonical form is kept. -/

namespace Sys2Proof.Machine

@[simp] theorem FMap.find?_nil {α : Type} (k : Nat) : FMap.find? ([] : FMap α) k = none := rfl

theorem FMap.find?_cons {α : Type} (j k : Nat) (v : α) (m : FMap α) :
    FMap.find? ((j, v) :: m) k = if j = k then some v else FMap.find? m k := rfl

/-- The row just inserted is found. -/
@[simp] theorem FMap.find?_insert_self {α : Type} (m : FMap α) (k : Nat) (v : α) :
    FMap.find? (FMap.insert m k v) k = some v := by
  induction m with
  | nil => simp [FMap.insert, FMap.find?]
  | cons row rest ih =>
    obtain ⟨j, w⟩ := row
    unfold FMap.insert
    split
    · simp [FMap.find?]
    · split
      · simp [FMap.find?]
      · rename_i h1 h2
        rw [find?_cons, if_neg (by omega), ih]

/-- Every other row is as it was. -/
theorem FMap.find?_insert_other {α : Type} (m : FMap α) {k j : Nat} (v : α) (h : j ≠ k) :
    FMap.find? (FMap.insert m k v) j = FMap.find? m j := by
  induction m with
  | nil => simp [FMap.insert, FMap.find?, h.symm]
  | cons row rest ih =>
    obtain ⟨i, w⟩ := row
    unfold FMap.insert
    split
    · rw [find?_cons, if_neg h.symm]
    · split
      · rename_i h1 h2
        subst h2
        simp [find?_cons, h.symm]
      · simp [find?_cons, ih]

theorem FMap.find?_insert {α : Type} (m : FMap α) (k j : Nat) (v : α) :
    FMap.find? (FMap.insert m k v) j = if j = k then some v else FMap.find? m j := by
  split
  · subst_vars; simp
  · rename_i h; exact find?_insert_other m v h

/-- An erased row is not found. -/
@[simp] theorem FMap.find?_erase_self {α : Type} (m : FMap α) (k : Nat) : FMap.find? (FMap.erase m k) k = none := by
  induction m with
  | nil => rfl
  | cons row rest ih =>
    obtain ⟨j, w⟩ := row
    unfold FMap.erase at *
    rw [List.filter_cons]
    split
    · rename_i h
      rw [find?_cons, if_neg (by simpa using h), ih]
    · exact ih

theorem FMap.find?_erase_other {α : Type} (m : FMap α) {k j : Nat} (h : j ≠ k) :
    FMap.find? (FMap.erase m k) j = FMap.find? m j := by
  induction m with
  | nil => rfl
  | cons row rest ih =>
    obtain ⟨i, w⟩ := row
    unfold FMap.erase at *
    rw [List.filter_cons]
    split
    · rw [find?_cons, find?_cons, ih]
    · rename_i hik
      have : i = k := by simpa using hik
      subst this
      rw [ih, find?_cons, if_neg h.symm]

theorem FMap.find?_erase {α : Type} (m : FMap α) (k j : Nat) :
    FMap.find? (FMap.erase m k) j = if j = k then none else FMap.find? m j := by
  split
  · subst_vars; simp
  · rename_i h; exact find?_erase_other m h

@[simp] theorem FMap.find?_mapValues {α : Type} (f : α → α) (m : FMap α) (k : Nat) :
    FMap.find? (FMap.mapValues f m) k = (FMap.find? m k).map f := by
  induction m with
  | nil => rfl
  | cons row rest ih =>
    obtain ⟨j, w⟩ := row
    simp only [FMap.mapValues, List.map_cons, find?_cons] at *
    split
    · rfl
    · exact ih

/-- A row that is found is a row of the list. -/
theorem FMap.mem_of_find? {α : Type} {m : FMap α} {k : Nat} {v : α} (h : FMap.find? m k = some v) : (k, v) ∈ m := by
  induction m with
  | nil => simp at h
  | cons row rest ih =>
    obtain ⟨j, w⟩ := row
    rw [find?_cons] at h
    split at h
    · simp_all
    · exact List.mem_cons_of_mem _ (ih h)

/-- The canonical form of a table of one row more. -/
theorem FMap.wf_cons {α : Type} (bound k : Nat) (v : α) (m : FMap α) :
    FMap.wf bound ((k, v) :: m) = true ↔
      k < bound ∧ (∀ row ∈ m, k < row.1) ∧ FMap.wf bound m = true := by
  simp [FMap.wf, and_assoc]

/-- In canonical form every row of the list is found under its key. -/
theorem FMap.find?_of_mem {α : Type} {bound : Nat} {m : FMap α} (hwf : FMap.wf bound m = true) {k : Nat} {v : α}
    (h : (k, v) ∈ m) : FMap.find? m k = some v := by
  induction m with
  | nil => simp at h
  | cons row rest ih =>
    obtain ⟨j, w⟩ := row
    rw [wf_cons] at hwf
    rw [find?_cons]
    rcases List.mem_cons.mp h with he | ht
    · cases he; simp
    · have := hwf.2.1 _ ht
      rw [if_neg (by simpa using (by omega : j ≠ k)), ih hwf.2.2 ht]

/-- In canonical form every key is below the bound. -/
theorem FMap.lt_of_find? {α : Type} {bound : Nat} {m : FMap α} (hwf : FMap.wf bound m = true) {k : Nat} {v : α}
    (h : FMap.find? m k = some v) : k < bound := by
  induction m with
  | nil => simp at h
  | cons row rest ih =>
    obtain ⟨j, w⟩ := row
    rw [wf_cons] at hwf
    rw [find?_cons] at h
    split at h
    · omega
    · exact ih hwf.2.2 h

theorem FMap.mem_insert {α : Type} {m : FMap α} {k : Nat} {v : α} {row : Nat × α} (h : row ∈ FMap.insert m k v) :
    row = (k, v) ∨ row ∈ m := by
  induction m with
  | nil => simpa [FMap.insert] using h
  | cons r rest ih =>
    obtain ⟨j, w⟩ := r
    unfold FMap.insert at h
    split at h
    · simpa using h
    · split at h
      · rcases List.mem_cons.mp h with h | h
        · exact .inl h
        · exact .inr (List.mem_cons_of_mem _ h)
      · rcases List.mem_cons.mp h with h | h
        · exact .inr (h ▸ List.mem_cons_self ..)
        · rcases ih h with h | h
          · exact .inl h
          · exact .inr (List.mem_cons_of_mem _ h)

/-- Inserting a row whose key is below the bound keeps the canonical form. -/
theorem FMap.wf_insert {α : Type} {bound : Nat} {m : FMap α} (hwf : FMap.wf bound m = true) {k : Nat} (hk : k < bound) (v : α) :
    FMap.wf bound (FMap.insert m k v) = true := by
  induction m with
  | nil => simp [FMap.insert, FMap.wf, hk]
  | cons row rest ih =>
    obtain ⟨j, w⟩ := row
    have hc := (wf_cons bound j w rest).mp hwf
    unfold FMap.insert
    split
    · rename_i hlt
      rw [wf_cons]
      refine ⟨hk, ?_, hwf⟩
      intro row hr
      rcases List.mem_cons.mp hr with h | h
      · subst h; exact hlt
      · exact Nat.lt_trans hlt (hc.2.1 row h)
    · split
      · rename_i _ he
        subst he
        rw [wf_cons]
        exact ⟨hk, hc.2.1, hc.2.2⟩
      · rename_i h1 h2
        rw [wf_cons]
        refine ⟨hc.1, ?_, ih hc.2.2⟩
        intro row hr
        rcases mem_insert hr with h | h
        · subst h; simp; omega
        · exact hc.2.1 row h

/-- Filtering rows keeps the canonical form. -/
theorem FMap.wf_filter {α : Type} {bound : Nat} {m : FMap α} (hwf : FMap.wf bound m = true) (p : Nat × α → Bool) :
    FMap.wf bound (List.filter p m : FMap α) = true := by
  induction m with
  | nil => rfl
  | cons row rest ih =>
    obtain ⟨j, w⟩ := row
    have hc := (wf_cons bound j w rest).mp hwf
    rw [List.filter_cons]
    split
    · rw [wf_cons]
      refine ⟨hc.1, ?_, ih hc.2.2⟩
      intro row hr
      exact hc.2.1 row (List.mem_filter.mp hr).1
    · exact ih hc.2.2

/-- Erasing a row keeps the canonical form. -/
theorem FMap.wf_erase {α : Type} {bound : Nat} {m : FMap α} (hwf : FMap.wf bound m = true) (k : Nat) :
    FMap.wf bound (FMap.erase m k) = true := wf_filter hwf _

/-- Changing values keeps the canonical form. -/
theorem FMap.wf_mapValues {α : Type} {bound : Nat} {m : FMap α} (hwf : FMap.wf bound m = true) (f : α → α) :
    FMap.wf bound (FMap.mapValues f m) = true := by
  induction m with
  | nil => rfl
  | cons row rest ih =>
    obtain ⟨j, w⟩ := row
    have hc := (wf_cons bound j w rest).mp hwf
    have hm : FMap.mapValues f ((j, w) :: rest) = (j, f w) :: FMap.mapValues f rest := rfl
    rw [hm, wf_cons]
    refine ⟨hc.1, ?_, ih hc.2.2⟩
    intro row hr
    obtain ⟨r, hr', rfl⟩ := List.mem_map.mp hr
    exact hc.2.1 r hr'

/-- The lowest free number is free and below the bound. -/
theorem FMap.lowestFree_spec {α : Type} {m : FMap α} {n k : Nat} (h : FMap.lowestFree m n = some k) :
    k < n ∧ FMap.find? m k = none := by
  have h1 := List.find?_some h
  have h2 := List.mem_of_find?_eq_some h
  exact ⟨by simpa using h2, by simpa using h1⟩

/-- Every number below the lowest free one has a row. -/
theorem FMap.lowestFree_least {α : Type} {m : FMap α} {n k j : Nat} (h : FMap.lowestFree m n = some k) (hj : j < k) :
    (FMap.find? m j).isSome = true := by
  have hk := (lowestFree_spec h).1
  unfold FMap.lowestFree at h
  rw [List.find?_range_eq_some] at h
  have := h.2.2 j hj
  simpa using this

/-- A row written twice is written once. -/
theorem FMap.insert_insert {α : Type} (m : FMap α) (k : Nat) (v w : α) :
    FMap.insert (FMap.insert m k w) k v = FMap.insert m k v := by
  induction m with
  | nil => simp [FMap.insert]
  | cons row rest ih =>
    obtain ⟨j, u⟩ := row
    by_cases h1 : k < j
    · simp [FMap.insert, h1]
    · by_cases h2 : k = j
      · subst h2; simp [FMap.insert]
      · simp [FMap.insert, h1, h2, ih]

end Sys2Proof.Machine
end

