-- ==== Sys2Proof/Laws/State.lean ====
section
/-! SUPPORT. What each named update and each shared operation leaves as it was: one rewriting rule for each field of
State, so that no proof unfolds a record update. -/

namespace Sys2Proof.Machine

/-- A projection that a step of a fold keeps, the fold keeps. -/
theorem foldl_same {α β : Type} (proj : State → β) (f : State → α → State) (h : ∀ s a, proj (f s a) = proj s)
    (l : List α) (s : State) : proj (l.foldl f s) = proj s := by
  induction l generalizing s with
  | nil => rfl
  | cons a l ih => rw [List.foldl_cons, ih, h]

/-! ### Named updates -/

@[simp] theorem State.setEntry_channels (s : State) (c : Channel) (e : ChannelEntry) : (s.setEntry c e).channels = putEntry s.channels c.toNat e := rfl
@[simp] theorem State.setEntry_slots (s : State) (c : Channel) (e : ChannelEntry) : (s.setEntry c e).slots = s.slots := rfl
@[simp] theorem State.setEntry_contexts (s : State) (c : Channel) (e : ChannelEntry) : (s.setEntry c e).contexts = s.contexts := rfl
@[simp] theorem State.setEntry_peers (s : State) (c : Channel) (e : ChannelEntry) : (s.setEntry c e).peers = s.peers := rfl
@[simp] theorem State.setEntry_classifier (s : State) (c : Channel) (e : ChannelEntry) : (s.setEntry c e).classifier = s.classifier := rfl
@[simp] theorem State.setEntry_store (s : State) (c : Channel) (e : ChannelEntry) : (s.setEntry c e).store = s.store := rfl
@[simp] theorem State.setEntry_span (s : State) (c : Channel) (e : ChannelEntry) : (s.setEntry c e).span = s.span := rfl
@[simp] theorem State.setEntry_station (s : State) (c : Channel) (e : ChannelEntry) : (s.setEntry c e).station = s.station := rfl
@[simp] theorem State.setEntry_port (s : State) (c : Channel) (e : ChannelEntry) : (s.setEntry c e).port = s.port := rfl
@[simp] theorem State.setEntry_events (s : State) (c : Channel) (e : ChannelEntry) : (s.setEntry c e).events = s.events := rfl
@[simp] theorem State.setEntry_pending (s : State) (c : Channel) (e : ChannelEntry) : (s.setEntry c e).pending = s.pending := rfl

@[simp] theorem State.putSlot_channels (s : State) (i : Nat) (sl : Slot) : (s.putSlot i sl).channels = s.channels := rfl
@[simp] theorem State.putSlot_slots (s : State) (i : Nat) (sl : Slot) : (s.putSlot i sl).slots = FMap.insert s.slots i sl := rfl
@[simp] theorem State.putSlot_contexts (s : State) (i : Nat) (sl : Slot) : (s.putSlot i sl).contexts = s.contexts := rfl
@[simp] theorem State.putSlot_peers (s : State) (i : Nat) (sl : Slot) : (s.putSlot i sl).peers = s.peers := rfl
@[simp] theorem State.putSlot_classifier (s : State) (i : Nat) (sl : Slot) : (s.putSlot i sl).classifier = s.classifier := rfl
@[simp] theorem State.putSlot_store (s : State) (i : Nat) (sl : Slot) : (s.putSlot i sl).store = s.store := rfl
@[simp] theorem State.putSlot_span (s : State) (i : Nat) (sl : Slot) : (s.putSlot i sl).span = s.span := rfl
@[simp] theorem State.putSlot_station (s : State) (i : Nat) (sl : Slot) : (s.putSlot i sl).station = s.station := rfl
@[simp] theorem State.putSlot_port (s : State) (i : Nat) (sl : Slot) : (s.putSlot i sl).port = s.port := rfl
@[simp] theorem State.putSlot_events (s : State) (i : Nat) (sl : Slot) : (s.putSlot i sl).events = s.events := rfl
@[simp] theorem State.putSlot_pending (s : State) (i : Nat) (sl : Slot) : (s.putSlot i sl).pending = s.pending := rfl

@[simp] theorem State.putContext_channels (s : State) (i : Nat) (k : Context) : (s.putContext i k).channels = s.channels := rfl
@[simp] theorem State.putContext_slots (s : State) (i : Nat) (k : Context) : (s.putContext i k).slots = s.slots := rfl
@[simp] theorem State.putContext_contexts (s : State) (i : Nat) (k : Context) : (s.putContext i k).contexts = FMap.insert s.contexts i k := rfl
@[simp] theorem State.putContext_peers (s : State) (i : Nat) (k : Context) : (s.putContext i k).peers = s.peers := rfl
@[simp] theorem State.putContext_classifier (s : State) (i : Nat) (k : Context) : (s.putContext i k).classifier = s.classifier := rfl
@[simp] theorem State.putContext_store (s : State) (i : Nat) (k : Context) : (s.putContext i k).store = s.store := rfl
@[simp] theorem State.putContext_span (s : State) (i : Nat) (k : Context) : (s.putContext i k).span = s.span := rfl
@[simp] theorem State.putContext_station (s : State) (i : Nat) (k : Context) : (s.putContext i k).station = s.station := rfl
@[simp] theorem State.putContext_port (s : State) (i : Nat) (k : Context) : (s.putContext i k).port = s.port := rfl
@[simp] theorem State.putContext_events (s : State) (i : Nat) (k : Context) : (s.putContext i k).events = s.events := rfl
@[simp] theorem State.putContext_pending (s : State) (i : Nat) (k : Context) : (s.putContext i k).pending = s.pending := rfl

@[simp] theorem State.setFifo_channels (s : State) (l : List FifoEntry) : (s.setFifo l).channels = s.channels := rfl
@[simp] theorem State.setFifo_slots (s : State) (l : List FifoEntry) : (s.setFifo l).slots = s.slots := rfl
@[simp] theorem State.setFifo_contexts (s : State) (l : List FifoEntry) : (s.setFifo l).contexts = s.contexts := rfl
@[simp] theorem State.setFifo_peers (s : State) (l : List FifoEntry) : (s.setFifo l).peers = s.peers := rfl
@[simp] theorem State.setFifo_classifier (s : State) (l : List FifoEntry) : (s.setFifo l).classifier = s.classifier := rfl
@[simp] theorem State.setFifo_store (s : State) (l : List FifoEntry) : (s.setFifo l).store = { s.store with fifo := l } := rfl
@[simp] theorem State.setFifo_span (s : State) (l : List FifoEntry) : (s.setFifo l).span = s.span := rfl
@[simp] theorem State.setFifo_station (s : State) (l : List FifoEntry) : (s.setFifo l).station = s.station := rfl
@[simp] theorem State.setFifo_port (s : State) (l : List FifoEntry) : (s.setFifo l).port = s.port := rfl
@[simp] theorem State.setFifo_events (s : State) (l : List FifoEntry) : (s.setFifo l).events = s.events := rfl
@[simp] theorem State.setFifo_pending (s : State) (l : List FifoEntry) : (s.setFifo l).pending = s.pending := rfl

@[simp] theorem State.freeBuffers_channels (s : State) (n : Nat) : (s.freeBuffers n).channels = s.channels := rfl
@[simp] theorem State.freeBuffers_slots (s : State) (n : Nat) : (s.freeBuffers n).slots = s.slots := rfl
@[simp] theorem State.freeBuffers_contexts (s : State) (n : Nat) : (s.freeBuffers n).contexts = s.contexts := rfl
@[simp] theorem State.freeBuffers_peers (s : State) (n : Nat) : (s.freeBuffers n).peers = s.peers := rfl
@[simp] theorem State.freeBuffers_classifier (s : State) (n : Nat) : (s.freeBuffers n).classifier = s.classifier := rfl
@[simp] theorem State.freeBuffers_store (s : State) (n : Nat) : (s.freeBuffers n).store = { s.store with free := s.store.free + n } := rfl
@[simp] theorem State.freeBuffers_span (s : State) (n : Nat) : (s.freeBuffers n).span = s.span := rfl
@[simp] theorem State.freeBuffers_station (s : State) (n : Nat) : (s.freeBuffers n).station = s.station := rfl
@[simp] theorem State.freeBuffers_port (s : State) (n : Nat) : (s.freeBuffers n).port = s.port := rfl
@[simp] theorem State.freeBuffers_events (s : State) (n : Nat) : (s.freeBuffers n).events = s.events := rfl
@[simp] theorem State.freeBuffers_pending (s : State) (n : Nat) : (s.freeBuffers n).pending = s.pending := rfl

@[simp] theorem State.setQueue_channels (s : State) (q : QueueName) (r : ReceiveQueue) : (s.setQueue q r).channels = s.channels := rfl
@[simp] theorem State.setQueue_slots (s : State) (q : QueueName) (r : ReceiveQueue) : (s.setQueue q r).slots = s.slots := rfl
@[simp] theorem State.setQueue_contexts (s : State) (q : QueueName) (r : ReceiveQueue) : (s.setQueue q r).contexts = s.contexts := rfl
@[simp] theorem State.setQueue_peers (s : State) (q : QueueName) (r : ReceiveQueue) : (s.setQueue q r).peers = s.peers := rfl
@[simp] theorem State.setQueue_classifier (s : State) (q : QueueName) (r : ReceiveQueue) : (s.setQueue q r).classifier = s.classifier := rfl
@[simp] theorem State.setQueue_store (s : State) (q : QueueName) (r : ReceiveQueue) : (s.setQueue q r).store = s.store.setQueue q r := rfl
@[simp] theorem State.setQueue_span (s : State) (q : QueueName) (r : ReceiveQueue) : (s.setQueue q r).span = s.span := rfl
@[simp] theorem State.setQueue_station (s : State) (q : QueueName) (r : ReceiveQueue) : (s.setQueue q r).station = s.station := rfl
@[simp] theorem State.setQueue_port (s : State) (q : QueueName) (r : ReceiveQueue) : (s.setQueue q r).port = s.port := rfl
@[simp] theorem State.setQueue_events (s : State) (q : QueueName) (r : ReceiveQueue) : (s.setQueue q r).events = s.events := rfl
@[simp] theorem State.setQueue_pending (s : State) (q : QueueName) (r : ReceiveQueue) : (s.setQueue q r).pending = s.pending := rfl

@[simp] theorem State.enterRequest_channels (s : State) (t : Octet) (k : RequestKind) (c : Option Channel) : (s.enterRequest t k c).channels = s.channels := rfl
@[simp] theorem State.enterRequest_slots (s : State) (t : Octet) (k : RequestKind) (c : Option Channel) : (s.enterRequest t k c).slots = s.slots := rfl
@[simp] theorem State.enterRequest_contexts (s : State) (t : Octet) (k : RequestKind) (c : Option Channel) : (s.enterRequest t k c).contexts = s.contexts := rfl
@[simp] theorem State.enterRequest_peers (s : State) (t : Octet) (k : RequestKind) (c : Option Channel) : (s.enterRequest t k c).peers = s.peers := rfl
@[simp] theorem State.enterRequest_classifier (s : State) (t : Octet) (k : RequestKind) (c : Option Channel) : (s.enterRequest t k c).classifier = s.classifier := rfl
@[simp] theorem State.enterRequest_store (s : State) (t : Octet) (k : RequestKind) (c : Option Channel) : (s.enterRequest t k c).store = s.store := rfl
@[simp] theorem State.enterRequest_span (s : State) (t : Octet) (k : RequestKind) (c : Option Channel) : (s.enterRequest t k c).span = s.span := rfl
@[simp] theorem State.enterRequest_station (s : State) (t : Octet) (k : RequestKind) (c : Option Channel) : (s.enterRequest t k c).station = s.station := rfl
@[simp] theorem State.enterRequest_port (s : State) (t : Octet) (k : RequestKind) (c : Option Channel) : (s.enterRequest t k c).port = { s.port with requests := s.port.requests ++ [⟨t, k, c⟩] } := rfl
@[simp] theorem State.enterRequest_events (s : State) (t : Octet) (k : RequestKind) (c : Option Channel) : (s.enterRequest t k c).events = s.events := rfl
@[simp] theorem State.enterRequest_pending (s : State) (t : Octet) (k : RequestKind) (c : Option Channel) : (s.enterRequest t k c).pending = s.pending := rfl

@[simp] theorem State.setResponse_channels (s : State) (l : List Octet) : (s.setResponse l).channels = s.channels := rfl
@[simp] theorem State.setResponse_slots (s : State) (l : List Octet) : (s.setResponse l).slots = s.slots := rfl
@[simp] theorem State.setResponse_contexts (s : State) (l : List Octet) : (s.setResponse l).contexts = s.contexts := rfl
@[simp] theorem State.setResponse_peers (s : State) (l : List Octet) : (s.setResponse l).peers = s.peers := rfl
@[simp] theorem State.setResponse_classifier (s : State) (l : List Octet) : (s.setResponse l).classifier = s.classifier := rfl
@[simp] theorem State.setResponse_store (s : State) (l : List Octet) : (s.setResponse l).store = s.store := rfl
@[simp] theorem State.setResponse_span (s : State) (l : List Octet) : (s.setResponse l).span = s.span := rfl
@[simp] theorem State.setResponse_station (s : State) (l : List Octet) : (s.setResponse l).station = s.station := rfl
@[simp] theorem State.setResponse_port (s : State) (l : List Octet) : (s.setResponse l).port = { s.port with response := l } := rfl
@[simp] theorem State.setResponse_events (s : State) (l : List Octet) : (s.setResponse l).events = s.events := rfl
@[simp] theorem State.setResponse_pending (s : State) (l : List Octet) : (s.setResponse l).pending = s.pending := rfl

@[simp] theorem State.respond_channels (s : State) (r : Result) (l : List Octet) : (s.respond r l).channels = s.channels := rfl
@[simp] theorem State.respond_slots (s : State) (r : Result) (l : List Octet) : (s.respond r l).slots = s.slots := rfl
@[simp] theorem State.respond_contexts (s : State) (r : Result) (l : List Octet) : (s.respond r l).contexts = s.contexts := rfl
@[simp] theorem State.respond_peers (s : State) (r : Result) (l : List Octet) : (s.respond r l).peers = s.peers := rfl
@[simp] theorem State.respond_classifier (s : State) (r : Result) (l : List Octet) : (s.respond r l).classifier = s.classifier := rfl
@[simp] theorem State.respond_store (s : State) (r : Result) (l : List Octet) : (s.respond r l).store = s.store := rfl
@[simp] theorem State.respond_span (s : State) (r : Result) (l : List Octet) : (s.respond r l).span = s.span := rfl
@[simp] theorem State.respond_station (s : State) (r : Result) (l : List Octet) : (s.respond r l).station = s.station := rfl
@[simp] theorem State.respond_port (s : State) (r : Result) (l : List Octet) : (s.respond r l).port = { s.port with response := r.code :: l } := rfl
@[simp] theorem State.respond_events (s : State) (r : Result) (l : List Octet) : (s.respond r l).events = s.events := rfl
@[simp] theorem State.respond_pending (s : State) (r : Result) (l : List Octet) : (s.respond r l).pending = s.pending := rfl

@[simp] theorem State.countFrameError_channels (s : State) : (s.countFrameError).channels = s.channels := rfl
@[simp] theorem State.countFrameError_slots (s : State) : (s.countFrameError).slots = s.slots := rfl
@[simp] theorem State.countFrameError_contexts (s : State) : (s.countFrameError).contexts = s.contexts := rfl
@[simp] theorem State.countFrameError_peers (s : State) : (s.countFrameError).peers = s.peers := rfl
@[simp] theorem State.countFrameError_classifier (s : State) : (s.countFrameError).classifier = s.classifier := rfl
@[simp] theorem State.countFrameError_store (s : State) : (s.countFrameError).store = s.store := rfl
@[simp] theorem State.countFrameError_span (s : State) : (s.countFrameError).span = s.span := rfl
@[simp] theorem State.countFrameError_station (s : State) : (s.countFrameError).station = s.station := rfl
@[simp] theorem State.countFrameError_port (s : State) : (s.countFrameError).port = { s.port with response := [], frameErrors := countUp s.port.frameErrors } := rfl
@[simp] theorem State.countFrameError_events (s : State) : (s.countFrameError).events = s.events := rfl
@[simp] theorem State.countFrameError_pending (s : State) : (s.countFrameError).pending = s.pending := rfl

@[simp] theorem State.setFilter_channels (s : State) (k : Nat) (f : Filter) : (s.setFilter k f).channels = s.channels := rfl
@[simp] theorem State.setFilter_slots (s : State) (k : Nat) (f : Filter) : (s.setFilter k f).slots = s.slots := rfl
@[simp] theorem State.setFilter_contexts (s : State) (k : Nat) (f : Filter) : (s.setFilter k f).contexts = s.contexts := rfl
@[simp] theorem State.setFilter_peers (s : State) (k : Nat) (f : Filter) : (s.setFilter k f).peers = s.peers := rfl
@[simp] theorem State.setFilter_store (s : State) (k : Nat) (f : Filter) : (s.setFilter k f).store = s.store := rfl
@[simp] theorem State.setFilter_span (s : State) (k : Nat) (f : Filter) : (s.setFilter k f).span = s.span := rfl
@[simp] theorem State.setFilter_station (s : State) (k : Nat) (f : Filter) : (s.setFilter k f).station = s.station := rfl
@[simp] theorem State.setFilter_port (s : State) (k : Nat) (f : Filter) : (s.setFilter k f).port = s.port := rfl
@[simp] theorem State.setFilter_events (s : State) (k : Nat) (f : Filter) : (s.setFilter k f).events = s.events := rfl
@[simp] theorem State.setFilter_pending (s : State) (k : Nat) (f : Filter) : (s.setFilter k f).pending = s.pending := rfl

@[simp] theorem State.setAttempt_channels (s : State) (a : Option Attempt) : (s.setAttempt a).channels = s.channels := rfl
@[simp] theorem State.setAttempt_slots (s : State) (a : Option Attempt) : (s.setAttempt a).slots = s.slots := rfl
@[simp] theorem State.setAttempt_contexts (s : State) (a : Option Attempt) : (s.setAttempt a).contexts = s.contexts := rfl
@[simp] theorem State.setAttempt_peers (s : State) (a : Option Attempt) : (s.setAttempt a).peers = s.peers := rfl
@[simp] theorem State.setAttempt_classifier (s : State) (a : Option Attempt) : (s.setAttempt a).classifier = s.classifier := rfl
@[simp] theorem State.setAttempt_store (s : State) (a : Option Attempt) : (s.setAttempt a).store = s.store := rfl
@[simp] theorem State.setAttempt_span (s : State) (a : Option Attempt) : (s.setAttempt a).span = { s.span with attempt := a } := rfl
@[simp] theorem State.setAttempt_station (s : State) (a : Option Attempt) : (s.setAttempt a).station = s.station := rfl
@[simp] theorem State.setAttempt_port (s : State) (a : Option Attempt) : (s.setAttempt a).port = s.port := rfl
@[simp] theorem State.setAttempt_events (s : State) (a : Option Attempt) : (s.setAttempt a).events = s.events := rfl
@[simp] theorem State.setAttempt_pending (s : State) (a : Option Attempt) : (s.setAttempt a).pending = s.pending := rfl

@[simp] theorem State.setFailures_channels (s : State) (n : Nat) : (s.setFailures n).channels = s.channels := rfl
@[simp] theorem State.setFailures_slots (s : State) (n : Nat) : (s.setFailures n).slots = s.slots := rfl
@[simp] theorem State.setFailures_contexts (s : State) (n : Nat) : (s.setFailures n).contexts = s.contexts := rfl
@[simp] theorem State.setFailures_peers (s : State) (n : Nat) : (s.setFailures n).peers = s.peers := rfl
@[simp] theorem State.setFailures_classifier (s : State) (n : Nat) : (s.setFailures n).classifier = s.classifier := rfl
@[simp] theorem State.setFailures_store (s : State) (n : Nat) : (s.setFailures n).store = s.store := rfl
@[simp] theorem State.setFailures_span (s : State) (n : Nat) : (s.setFailures n).span = { s.span with failures := n } := rfl
@[simp] theorem State.setFailures_station (s : State) (n : Nat) : (s.setFailures n).station = s.station := rfl
@[simp] theorem State.setFailures_port (s : State) (n : Nat) : (s.setFailures n).port = s.port := rfl
@[simp] theorem State.setFailures_events (s : State) (n : Nat) : (s.setFailures n).events = s.events := rfl
@[simp] theorem State.setFailures_pending (s : State) (n : Nat) : (s.setFailures n).pending = s.pending := rfl

@[simp] theorem State.setReplies_channels (s : State) (l : List Reply) : (s.setReplies l).channels = s.channels := rfl
@[simp] theorem State.setReplies_slots (s : State) (l : List Reply) : (s.setReplies l).slots = s.slots := rfl
@[simp] theorem State.setReplies_contexts (s : State) (l : List Reply) : (s.setReplies l).contexts = s.contexts := rfl
@[simp] theorem State.setReplies_peers (s : State) (l : List Reply) : (s.setReplies l).peers = s.peers := rfl
@[simp] theorem State.setReplies_classifier (s : State) (l : List Reply) : (s.setReplies l).classifier = s.classifier := rfl
@[simp] theorem State.setReplies_store (s : State) (l : List Reply) : (s.setReplies l).store = s.store := rfl
@[simp] theorem State.setReplies_span (s : State) (l : List Reply) : (s.setReplies l).span = { s.span with replies := l } := rfl
@[simp] theorem State.setReplies_station (s : State) (l : List Reply) : (s.setReplies l).station = s.station := rfl
@[simp] theorem State.setReplies_port (s : State) (l : List Reply) : (s.setReplies l).port = s.port := rfl
@[simp] theorem State.setReplies_events (s : State) (l : List Reply) : (s.setReplies l).events = s.events := rfl
@[simp] theorem State.setReplies_pending (s : State) (l : List Reply) : (s.setReplies l).pending = s.pending := rfl

@[simp] theorem State.setBeacon_channels (s : State) (b : Option OwedBeacon) : (s.setBeacon b).channels = s.channels := rfl
@[simp] theorem State.setBeacon_slots (s : State) (b : Option OwedBeacon) : (s.setBeacon b).slots = s.slots := rfl
@[simp] theorem State.setBeacon_contexts (s : State) (b : Option OwedBeacon) : (s.setBeacon b).contexts = s.contexts := rfl
@[simp] theorem State.setBeacon_peers (s : State) (b : Option OwedBeacon) : (s.setBeacon b).peers = s.peers := rfl
@[simp] theorem State.setBeacon_classifier (s : State) (b : Option OwedBeacon) : (s.setBeacon b).classifier = s.classifier := rfl
@[simp] theorem State.setBeacon_store (s : State) (b : Option OwedBeacon) : (s.setBeacon b).store = s.store := rfl
@[simp] theorem State.setBeacon_span (s : State) (b : Option OwedBeacon) : (s.setBeacon b).span = s.span := rfl
@[simp] theorem State.setBeacon_station (s : State) (b : Option OwedBeacon) : (s.setBeacon b).station = { s.station with beacon := b } := rfl
@[simp] theorem State.setBeacon_port (s : State) (b : Option OwedBeacon) : (s.setBeacon b).port = s.port := rfl
@[simp] theorem State.setBeacon_events (s : State) (b : Option OwedBeacon) : (s.setBeacon b).events = s.events := rfl
@[simp] theorem State.setBeacon_pending (s : State) (b : Option OwedBeacon) : (s.setBeacon b).pending = s.pending := rfl

@[simp] theorem State.countSendFailure_channels (s : State) : (s.countSendFailure).channels = s.channels := rfl
@[simp] theorem State.countSendFailure_slots (s : State) : (s.countSendFailure).slots = s.slots := rfl
@[simp] theorem State.countSendFailure_contexts (s : State) : (s.countSendFailure).contexts = s.contexts := rfl
@[simp] theorem State.countSendFailure_peers (s : State) : (s.countSendFailure).peers = s.peers := rfl
@[simp] theorem State.countSendFailure_classifier (s : State) : (s.countSendFailure).classifier = s.classifier := rfl
@[simp] theorem State.countSendFailure_store (s : State) : (s.countSendFailure).store = { s.store with sendFailures := countUp s.store.sendFailures } := rfl
@[simp] theorem State.countSendFailure_span (s : State) : (s.countSendFailure).span = s.span := rfl
@[simp] theorem State.countSendFailure_station (s : State) : (s.countSendFailure).station = s.station := rfl
@[simp] theorem State.countSendFailure_port (s : State) : (s.countSendFailure).port = s.port := rfl
@[simp] theorem State.countSendFailure_events (s : State) : (s.countSendFailure).events = s.events := rfl
@[simp] theorem State.countSendFailure_pending (s : State) : (s.countSendFailure).pending = s.pending := rfl

@[simp] theorem State.countMalformed_channels (s : State) : (s.countMalformed).channels = s.channels := rfl
@[simp] theorem State.countMalformed_slots (s : State) : (s.countMalformed).slots = s.slots := rfl
@[simp] theorem State.countMalformed_contexts (s : State) : (s.countMalformed).contexts = s.contexts := rfl
@[simp] theorem State.countMalformed_peers (s : State) : (s.countMalformed).peers = s.peers := rfl
@[simp] theorem State.countMalformed_classifier (s : State) : (s.countMalformed).classifier = s.classifier := rfl
@[simp] theorem State.countMalformed_store (s : State) : (s.countMalformed).store = s.store := rfl
@[simp] theorem State.countMalformed_span (s : State) : (s.countMalformed).span = { s.span with malformed := countUp s.span.malformed } := rfl
@[simp] theorem State.countMalformed_station (s : State) : (s.countMalformed).station = s.station := rfl
@[simp] theorem State.countMalformed_port (s : State) : (s.countMalformed).port = s.port := rfl
@[simp] theorem State.countMalformed_events (s : State) : (s.countMalformed).events = s.events := rfl
@[simp] theorem State.countMalformed_pending (s : State) : (s.countMalformed).pending = s.pending := rfl

/-! ### Shared operations -/

@[simp] theorem State.notify_same (s : State) (n : Notification) :
    (s.notify n).channels = s.channels ∧ (s.notify n).slots = s.slots ∧ (s.notify n).contexts = s.contexts ∧
    (s.notify n).peers = s.peers ∧ (s.notify n).classifier = s.classifier ∧ (s.notify n).store = s.store ∧
    (s.notify n).span = s.span ∧ (s.notify n).station = s.station ∧ (s.notify n).port = s.port ∧
    (s.notify n).pending = s.pending := by
  unfold State.notify; (repeat' split) <;> simp

@[simp] theorem State.testWithdrawal_same (s : State) :
    (s.testWithdrawal).channels = s.channels ∧ (s.testWithdrawal).slots = s.slots ∧
    (s.testWithdrawal).contexts = s.contexts ∧ (s.testWithdrawal).peers = s.peers ∧
    (s.testWithdrawal).classifier = s.classifier ∧ (s.testWithdrawal).store = s.store ∧
    (s.testWithdrawal).span = s.span ∧ (s.testWithdrawal).port = s.port ∧ (s.testWithdrawal).events = s.events ∧
    (s.testWithdrawal).pending = s.pending := by
  unfold State.testWithdrawal; (repeat' split) <;> simp

@[simp] theorem State.complete_same (s : State) (t : Octet) (e : Ending) :
    (s.complete t e).channels = s.channels ∧ (s.complete t e).slots = s.slots ∧
    (s.complete t e).contexts = s.contexts ∧ (s.complete t e).peers = s.peers ∧
    (s.complete t e).classifier = s.classifier ∧ (s.complete t e).store = s.store ∧ (s.complete t e).span = s.span ∧
    (s.complete t e).pending = s.pending := by
  unfold State.complete; (repeat' split) <;> simp

@[simp] theorem State.completeHeld_same (s : State) (t : Option Octet) (e : Ending) :
    (s.completeHeld t e).channels = s.channels ∧ (s.completeHeld t e).slots = s.slots ∧
    (s.completeHeld t e).contexts = s.contexts ∧ (s.completeHeld t e).peers = s.peers ∧
    (s.completeHeld t e).classifier = s.classifier ∧ (s.completeHeld t e).store = s.store ∧
    (s.completeHeld t e).span = s.span ∧ (s.completeHeld t e).pending = s.pending := by
  unfold State.completeHeld; (repeat' split) <;> simp

@[simp] theorem State.freeSlot_same (s : State) (i : Nat) (c : Channel) (x : Option Station) :
    (s.freeSlot i c x).contexts = s.contexts ∧ (s.freeSlot i c x).peers = s.peers ∧
    (s.freeSlot i c x).classifier = s.classifier ∧ (s.freeSlot i c x).store = s.store ∧
    (s.freeSlot i c x).span = s.span ∧ (s.freeSlot i c x).port = s.port ∧ (s.freeSlot i c x).events = s.events ∧
    (s.freeSlot i c x).pending = s.pending := by
  simp [State.freeSlot]

@[simp] theorem State.takeSnapshot_same (s : State) (c : Channel) :
    (s.takeSnapshot c).channels = s.channels ∧ (s.takeSnapshot c).contexts = s.contexts ∧
    (s.takeSnapshot c).peers = s.peers ∧ (s.takeSnapshot c).classifier = s.classifier ∧
    (s.takeSnapshot c).store = s.store ∧ (s.takeSnapshot c).span = s.span ∧ (s.takeSnapshot c).station = s.station ∧
    (s.takeSnapshot c).port = s.port ∧ (s.takeSnapshot c).events = s.events ∧ (s.takeSnapshot c).pending = s.pending := by
  unfold State.takeSnapshot; (repeat' split) <;> simp

@[simp] theorem State.consumeMarkers_same (s : State) :
    (s.consumeMarkers).channels = s.channels ∧ (s.consumeMarkers).contexts = s.contexts ∧
    (s.consumeMarkers).peers = s.peers ∧ (s.consumeMarkers).classifier = s.classifier ∧
    (s.consumeMarkers).span = s.span ∧ (s.consumeMarkers).station = s.station ∧ (s.consumeMarkers).port = s.port ∧
    (s.consumeMarkers).events = s.events ∧ (s.consumeMarkers).pending = s.pending := by
  unfold State.consumeMarkers
  refine ⟨?_, ?_, ?_, ?_, ?_, ?_, ?_, ?_, ?_⟩
  · rw [foldl_same (fun t => t.channels) State.takeSnapshot (by simp)]; rfl
  · rw [foldl_same (fun t => t.contexts) State.takeSnapshot (by simp)]; rfl
  · rw [foldl_same (fun t => t.peers) State.takeSnapshot (by simp)]; rfl
  · rw [foldl_same (fun t => t.classifier) State.takeSnapshot (by simp)]; rfl
  · rw [foldl_same (fun t => t.span) State.takeSnapshot (by simp)]; rfl
  · rw [foldl_same (fun t => t.station) State.takeSnapshot (by simp)]; rfl
  · rw [foldl_same (fun t => t.port) State.takeSnapshot (by simp)]; rfl
  · rw [foldl_same (fun t => t.events) State.takeSnapshot (by simp)]; rfl
  · rw [foldl_same (fun t => t.pending) State.takeSnapshot (by simp)]; rfl

@[simp] theorem State.startRelease_same (s : State) (i : Nat) (sl : Slot) (t : Option Octet) :
    (s.startRelease i sl t).contexts = s.contexts ∧ (s.startRelease i sl t).peers = s.peers ∧
    (s.startRelease i sl t).classifier = s.classifier ∧ (s.startRelease i sl t).span = s.span ∧
    (s.startRelease i sl t).station = s.station ∧ (s.startRelease i sl t).port = s.port ∧
    (s.startRelease i sl t).events = s.events ∧ (s.startRelease i sl t).pending = s.pending := by
  simp [State.startRelease]

@[simp] theorem State.dropHeadData_same (s : State) :
    (s.dropHeadData).channels = s.channels ∧ (s.dropHeadData).contexts = s.contexts ∧
    (s.dropHeadData).peers = s.peers ∧ (s.dropHeadData).classifier = s.classifier ∧ (s.dropHeadData).span = s.span ∧
    (s.dropHeadData).station = s.station ∧ (s.dropHeadData).port = s.port ∧ (s.dropHeadData).events = s.events ∧
    (s.dropHeadData).pending = s.pending := by
  unfold State.dropHeadData; (repeat' split) <;> simp

@[simp] theorem State.purgeFifo_same (s : State) (c : Channel) :
    (s.purgeFifo c).channels = s.channels ∧ (s.purgeFifo c).slots = s.slots ∧ (s.purgeFifo c).contexts = s.contexts ∧
    (s.purgeFifo c).peers = s.peers ∧ (s.purgeFifo c).classifier = s.classifier ∧ (s.purgeFifo c).span = s.span ∧
    (s.purgeFifo c).station = s.station ∧ (s.purgeFifo c).port = s.port ∧ (s.purgeFifo c).events = s.events ∧
    (s.purgeFifo c).pending = s.pending := by
  simp [State.purgeFifo]

@[simp] theorem State.addReply_same (s : State) (k : ReplyKind) (c : Channel) (x : Station) :
    (s.addReply k c x).channels = s.channels ∧ (s.addReply k c x).slots = s.slots ∧
    (s.addReply k c x).contexts = s.contexts ∧ (s.addReply k c x).peers = s.peers ∧
    (s.addReply k c x).classifier = s.classifier ∧ (s.addReply k c x).store = s.store ∧
    (s.addReply k c x).station = s.station ∧ (s.addReply k c x).port = s.port ∧
    (s.addReply k c x).events = s.events ∧ (s.addReply k c x).pending = s.pending := by
  unfold State.addReply; (repeat' split) <;> simp

@[simp] theorem State.purgeReplies_same (s : State) (c : Channel) :
    (s.purgeReplies c).channels = s.channels ∧ (s.purgeReplies c).slots = s.slots ∧
    (s.purgeReplies c).contexts = s.contexts ∧ (s.purgeReplies c).peers = s.peers ∧
    (s.purgeReplies c).classifier = s.classifier ∧ (s.purgeReplies c).store = s.store ∧
    (s.purgeReplies c).station = s.station ∧ (s.purgeReplies c).port = s.port ∧
    (s.purgeReplies c).events = s.events ∧ (s.purgeReplies c).pending = s.pending := by
  simp [State.purgeReplies]

@[simp] theorem State.freeContext_same (s : State) (i : Nat) (c : Channel) :
    (s.freeContext i c).slots = s.slots ∧ (s.freeContext i c).peers = s.peers ∧
    (s.freeContext i c).classifier = s.classifier ∧ (s.freeContext i c).store = s.store ∧
    (s.freeContext i c).span = s.span ∧ (s.freeContext i c).port = s.port ∧ (s.freeContext i c).events = s.events ∧
    (s.freeContext i c).pending = s.pending := by
  simp [State.freeContext]

@[simp] theorem State.startLeave_same (s : State) (i : Nat) (k : Context) (t : Option Octet) :
    (s.startLeave i k t).slots = s.slots ∧ (s.startLeave i k t).peers = s.peers ∧
    (s.startLeave i k t).classifier = s.classifier ∧ (s.startLeave i k t).store = s.store ∧
    (s.startLeave i k t).span = s.span ∧ (s.startLeave i k t).station = s.station ∧
    (s.startLeave i k t).port = s.port ∧ (s.startLeave i k t).events = s.events ∧
    (s.startLeave i k t).pending = s.pending := by
  simp [State.startLeave]

@[simp] theorem State.orphan_same (s : State) (i : Nat) (k : Context) (r : OrphanReason) (x : Station) :
    (s.orphan i k r x).slots = s.slots ∧ (s.orphan i k r x).peers = s.peers ∧
    (s.orphan i k r x).classifier = s.classifier ∧ (s.orphan i k r x).store = s.store ∧
    (s.orphan i k r x).span = s.span ∧ (s.orphan i k r x).pending = s.pending := by
  simp [State.orphan]

@[simp] theorem State.dequeued_same (s : State) (d : Descriptor) :
    (s.dequeued d).slots = s.slots ∧ (s.dequeued d).peers = s.peers ∧ (s.dequeued d).classifier = s.classifier ∧
    (s.dequeued d).span = s.span ∧ (s.dequeued d).station = s.station ∧ (s.dequeued d).port = s.port ∧
    (s.dequeued d).events = s.events ∧ (s.dequeued d).pending = s.pending := by
  simp only [State.dequeued]; (repeat' split) <;> simp

@[simp] theorem State.offer_same (s : State) (q : QueueName) (d : Descriptor) :
    (s.offer q d).slots = s.slots ∧ (s.offer q d).contexts = s.contexts ∧ (s.offer q d).peers = s.peers ∧
    (s.offer q d).classifier = s.classifier ∧ (s.offer q d).span = s.span ∧ (s.offer q d).station = s.station ∧
    (s.offer q d).port = s.port ∧ (s.offer q d).pending = s.pending := by
  simp only [State.offer]; (repeat' split) <;> simp

@[simp] theorem State.departContext_same (s : State) (y : Station) (row : Nat × Context) :
    (State.departContext y s row).slots = s.slots ∧ (State.departContext y s row).peers = s.peers ∧
    (State.departContext y s row).classifier = s.classifier ∧ (State.departContext y s row).store = s.store ∧
    (State.departContext y s row).span = s.span ∧ (State.departContext y s row).pending = s.pending := by
  unfold State.departContext; (repeat' split) <;> simp

@[simp] theorem State.depart_same (s : State) (y : Station) (r : LostReason) (e : Octet) :
    (s.depart y r e).classifier = s.classifier ∧ (s.depart y r e).store = s.store ∧ (s.depart y r e).span = s.span ∧
    (s.depart y r e).pending = s.pending := by
  unfold State.depart
  refine ⟨?_, ?_, ?_, ?_⟩
  · rw [foldl_same (fun t => t.classifier) (State.departContext y) (by simp)]; simp
  · rw [foldl_same (fun t => t.store) (State.departContext y) (by simp)]; simp
  · rw [foldl_same (fun t => t.span) (State.departContext y) (by simp)]; simp
  · rw [foldl_same (fun t => t.pending) (State.departContext y) (by simp)]; simp

@[simp] theorem State.yieldTo_same (s : State) (i : Nat) (sl : Slot) (x : Station) :
    (s.yieldTo i sl x).contexts = s.contexts ∧ (s.yieldTo i sl x).peers = s.peers ∧
    (s.yieldTo i sl x).classifier = s.classifier ∧ (s.yieldTo i sl x).store = s.store ∧
    (s.yieldTo i sl x).span = s.span ∧ (s.yieldTo i sl x).pending = s.pending := by
  simp [State.yieldTo]

@[simp] theorem State.loseChannel_same (s : State) (i : Nat) (sl : Slot) (x : Station) :
    (s.loseChannel i sl x).contexts = s.contexts ∧ (s.loseChannel i sl x).peers = s.peers ∧
    (s.loseChannel i sl x).classifier = s.classifier ∧ (s.loseChannel i sl x).pending = s.pending := by
  simp only [State.loseChannel]; (repeat' split) <;> simp

@[simp] theorem State.endRelease_same (s : State) (i : Nat) (sl : Slot) (u : Bool) :
    (s.endRelease i sl u).contexts = s.contexts ∧ (s.endRelease i sl u).peers = s.peers ∧
    (s.endRelease i sl u).classifier = s.classifier ∧ (s.endRelease i sl u).store = s.store ∧
    (s.endRelease i sl u).pending = s.pending := by
  unfold State.endRelease; (repeat' split) <;> simp

@[simp] theorem State.enterDetached_same (s : State) :
    (s.enterDetached).slots = s.slots ∧ (s.enterDetached).contexts = s.contexts ∧
    (s.enterDetached).classifier = s.classifier ∧ (s.enterDetached).store = s.store ∧
    (s.enterDetached).port = s.port ∧ (s.enterDetached).events = s.events ∧ (s.enterDetached).pending = s.pending := by
  simp [State.enterDetached]

@[simp] theorem State.enterMuted_same (s : State) (r : MuteReason) :
    (s.enterMuted r).peers = s.peers ∧ (s.enterMuted r).classifier = s.classifier ∧
    (s.enterMuted r).pending = s.pending := by
  simp [State.enterMuted]

@[simp] theorem State.duplicateNumber_same (s : State) :
    (s.duplicateNumber).classifier = s.classifier ∧ (s.duplicateNumber).pending = s.pending := by
  simp only [State.duplicateNumber]; (repeat' split) <;> simp

/-! ### Messages heard -/

@[simp] theorem State.arrive_same (s : State) (h : Header) (b : Body) :
    (s.arrive h b).channels = s.channels ∧ (s.arrive h b).slots = s.slots ∧ (s.arrive h b).contexts = s.contexts ∧
    (s.arrive h b).classifier = s.classifier ∧ (s.arrive h b).store = s.store ∧ (s.arrive h b).span = s.span ∧
    (s.arrive h b).station = s.station ∧ (s.arrive h b).port = s.port ∧ (s.arrive h b).pending = s.pending := by
  simp [State.arrive]

@[simp] theorem State.continuePresence_same (s : State) (h : Header) (b : Body) (p : Peer) :
    (s.continuePresence h b p).channels = s.channels ∧ (s.continuePresence h b p).slots = s.slots ∧
    (s.continuePresence h b p).contexts = s.contexts ∧ (s.continuePresence h b p).classifier = s.classifier ∧
    (s.continuePresence h b p).store = s.store ∧ (s.continuePresence h b p).span = s.span ∧
    (s.continuePresence h b p).station = s.station ∧ (s.continuePresence h b p).port = s.port ∧
    (s.continuePresence h b p).events = s.events ∧ (s.continuePresence h b p).pending = s.pending := by
  simp [State.continuePresence]

@[simp] theorem State.peerTakes_same (s : State) (h : Header) (b : Body) :
    (s.peerTakes h b).classifier = s.classifier ∧ (s.peerTakes h b).store = s.store ∧
    (s.peerTakes h b).span = s.span ∧ (s.peerTakes h b).pending = s.pending := by
  unfold State.peerTakes; (repeat' split) <;> simp

@[simp] theorem State.ownerChanges_same (s : State) (c : Channel) (x : Station) :
    (s.ownerChanges c x).slots = s.slots ∧ (s.ownerChanges c x).peers = s.peers ∧
    (s.ownerChanges c x).classifier = s.classifier ∧ (s.ownerChanges c x).store = s.store ∧
    (s.ownerChanges c x).span = s.span ∧ (s.ownerChanges c x).pending = s.pending := by
  unfold State.ownerChanges; (repeat' split) <;> simp

@[simp] theorem State.ownerIndicated_same (s : State) (c : Channel) (x : Station) :
    (s.ownerIndicated c x).peers = s.peers ∧ (s.ownerIndicated c x).classifier = s.classifier ∧
    (s.ownerIndicated c x).pending = s.pending := by
  unfold State.ownerIndicated; (repeat' split) <;> simp

@[simp] theorem State.channelTakes_same (s : State) (h : Header) (b : Body) :
    (s.channelTakes h b).peers = s.peers ∧ (s.channelTakes h b).classifier = s.classifier ∧
    (s.channelTakes h b).pending = s.pending := by
  unfold State.channelTakes; (repeat' split) <;> simp

@[simp] theorem State.takeClaim_same (s : State) (h : Header) :
    (s.takeClaim h).contexts = s.contexts ∧ (s.takeClaim h).peers = s.peers ∧
    (s.takeClaim h).classifier = s.classifier ∧ (s.takeClaim h).store = s.store ∧ (s.takeClaim h).pending = s.pending := by
  unfold State.takeClaim; (repeat' split) <;> simp

@[simp] theorem State.takeJoin_same (s : State) (h : Header) :
    (s.takeJoin h).channels = s.channels ∧ (s.takeJoin h).contexts = s.contexts ∧ (s.takeJoin h).peers = s.peers ∧
    (s.takeJoin h).classifier = s.classifier ∧ (s.takeJoin h).store = s.store ∧ (s.takeJoin h).station = s.station ∧
    (s.takeJoin h).port = s.port ∧ (s.takeJoin h).events = s.events ∧ (s.takeJoin h).pending = s.pending := by
  unfold State.takeJoin; (repeat' split) <;> simp

@[simp] theorem State.takeLeave_same (s : State) (h : Header) :
    (s.takeLeave h).channels = s.channels ∧ (s.takeLeave h).contexts = s.contexts ∧ (s.takeLeave h).peers = s.peers ∧
    (s.takeLeave h).classifier = s.classifier ∧ (s.takeLeave h).store = s.store ∧
    (s.takeLeave h).station = s.station ∧ (s.takeLeave h).port = s.port ∧ (s.takeLeave h).events = s.events ∧
    (s.takeLeave h).pending = s.pending := by
  unfold State.takeLeave; (repeat' split) <;> simp

@[simp] theorem State.takeDrained_same (s : State) (h : Header) :
    (s.takeDrained h).channels = s.channels ∧ (s.takeDrained h).contexts = s.contexts ∧
    (s.takeDrained h).peers = s.peers ∧ (s.takeDrained h).classifier = s.classifier ∧
    (s.takeDrained h).store = s.store ∧ (s.takeDrained h).span = s.span ∧ (s.takeDrained h).station = s.station ∧
    (s.takeDrained h).port = s.port ∧ (s.takeDrained h).events = s.events ∧ (s.takeDrained h).pending = s.pending := by
  unfold State.takeDrained; (repeat' split) <;> simp

@[simp] theorem State.takeAdmit_same (s : State) (h : Header) (q : Seq) :
    (s.takeAdmit h q).slots = s.slots ∧ (s.takeAdmit h q).peers = s.peers ∧
    (s.takeAdmit h q).classifier = s.classifier ∧ (s.takeAdmit h q).store = s.store ∧
    (s.takeAdmit h q).pending = s.pending := by
  unfold State.takeAdmit; (repeat' split) <;> simp

@[simp] theorem State.endJoin_same (s : State) (i : Nat) (k : Context) (e : Ending) :
    (s.endJoin i k e).slots = s.slots ∧ (s.endJoin i k e).peers = s.peers ∧
    (s.endJoin i k e).classifier = s.classifier ∧ (s.endJoin i k e).store = s.store ∧
    (s.endJoin i k e).span = s.span ∧ (s.endJoin i k e).pending = s.pending := by
  simp [State.endJoin]

@[simp] theorem State.takeDenyReleasing_same (s : State) (h : Header) :
    (s.takeDenyReleasing h).slots = s.slots ∧ (s.takeDenyReleasing h).peers = s.peers ∧
    (s.takeDenyReleasing h).classifier = s.classifier ∧ (s.takeDenyReleasing h).store = s.store ∧
    (s.takeDenyReleasing h).span = s.span ∧ (s.takeDenyReleasing h).pending = s.pending := by
  unfold State.takeDenyReleasing; (repeat' split) <;> simp

@[simp] theorem State.takeDenyNotOwner_same (s : State) (h : Header) :
    (s.takeDenyNotOwner h).slots = s.slots ∧ (s.takeDenyNotOwner h).peers = s.peers ∧
    (s.takeDenyNotOwner h).classifier = s.classifier ∧ (s.takeDenyNotOwner h).store = s.store ∧
    (s.takeDenyNotOwner h).span = s.span ∧ (s.takeDenyNotOwner h).pending = s.pending := by
  simp only [State.takeDenyNotOwner]; (repeat' split) <;> simp

@[simp] theorem State.takeLeft_same (s : State) (h : Header) :
    (s.takeLeft h).slots = s.slots ∧ (s.takeLeft h).peers = s.peers ∧ (s.takeLeft h).classifier = s.classifier ∧
    (s.takeLeft h).store = s.store ∧ (s.takeLeft h).span = s.span ∧ (s.takeLeft h).pending = s.pending := by
  unfold State.takeLeft; (repeat' split) <;> simp

@[simp] theorem State.takeDrain_same (s : State) (h : Header) :
    (s.takeDrain h).slots = s.slots ∧ (s.takeDrain h).peers = s.peers ∧ (s.takeDrain h).classifier = s.classifier ∧
    (s.takeDrain h).store = s.store ∧ (s.takeDrain h).span = s.span ∧ (s.takeDrain h).station = s.station ∧
    (s.takeDrain h).port = s.port ∧ (s.takeDrain h).events = s.events ∧ (s.takeDrain h).pending = s.pending := by
  unfold State.takeDrain; (repeat' split) <;> simp

@[simp] theorem State.takeRelease_same (s : State) (h : Header) :
    (s.takeRelease h).slots = s.slots ∧ (s.takeRelease h).peers = s.peers ∧
    (s.takeRelease h).classifier = s.classifier ∧ (s.takeRelease h).store = s.store ∧
    (s.takeRelease h).span = s.span ∧ (s.takeRelease h).pending = s.pending := by
  unfold State.takeRelease; (repeat' split) <;> simp

@[simp] theorem State.countStray_same (s : State) :
    (s.countStray).channels = s.channels ∧ (s.countStray).slots = s.slots ∧ (s.countStray).contexts = s.contexts ∧
    (s.countStray).peers = s.peers ∧ (s.countStray).store = s.store ∧ (s.countStray).span = s.span ∧
    (s.countStray).station = s.station ∧ (s.countStray).port = s.port ∧ (s.countStray).events = s.events ∧
    (s.countStray).pending = s.pending := by
  simp [State.countStray]

@[simp] theorem State.routeCell_same (s : State) (h : Header) (q : Seq) (p : List Octet) (m : Option Nat) :
    (s.routeCell h q p m).slots = s.slots ∧ (s.routeCell h q p m).contexts = s.contexts ∧
    (s.routeCell h q p m).peers = s.peers ∧ (s.routeCell h q p m).span = s.span ∧
    (s.routeCell h q p m).station = s.station ∧ (s.routeCell h q p m).port = s.port ∧
    (s.routeCell h q p m).pending = s.pending := by
  simp only [State.routeCell]; (repeat' split) <;> simp

@[simp] theorem State.classify_same (s : State) (h : Header) (q : Seq) (p : List Octet) :
    (s.classify h q p).slots = s.slots ∧ (s.classify h q p).peers = s.peers ∧ (s.classify h q p).span = s.span ∧
    (s.classify h q p).station = s.station ∧ (s.classify h q p).port = s.port ∧
    (s.classify h q p).pending = s.pending := by
  unfold State.classify; (repeat' split) <;> simp

@[simp] theorem State.consume_same (s : State) (h : Header) (b : Body) :
    (s.consume h b).peers = s.peers ∧ (s.consume h b).pending = s.pending := by
  unfold State.consume; (repeat' split) <;> simp

/-! ### Transmissions -/

@[simp] theorem State.mark_same (s : State) (x : Sender) (w : Bool) :
    (s.mark x w).channels = s.channels ∧ (s.mark x w).peers = s.peers ∧ (s.mark x w).classifier = s.classifier ∧
    (s.mark x w).port = s.port ∧ (s.mark x w).events = s.events ∧ (s.mark x w).pending = s.pending := by
  unfold State.mark; (repeat' split) <;> simp

@[simp] theorem State.loseContention_same (s : State) (x : Sender) :
    (s.loseContention x).channels = s.channels ∧ (s.loseContention x).peers = s.peers ∧
    (s.loseContention x).classifier = s.classifier ∧ (s.loseContention x).port = s.port ∧
    (s.loseContention x).events = s.events ∧ (s.loseContention x).pending = s.pending := by
  unfold State.loseContention; (repeat' split) <;> simp

@[simp] theorem State.winClaim_same (s : State) (i : Nat) (sl : Slot) :
    (s.winClaim i sl).contexts = s.contexts ∧ (s.winClaim i sl).peers = s.peers ∧
    (s.winClaim i sl).classifier = s.classifier ∧ (s.winClaim i sl).span = s.span ∧
    (s.winClaim i sl).pending = s.pending := by
  simp only [State.winClaim]; (repeat' split) <;> simp

@[simp] theorem State.echoSlot_same (s : State) (i : Nat) (sl : Slot) (k : SlotMessage) :
    (s.echoSlot i sl k).contexts = s.contexts ∧ (s.echoSlot i sl k).peers = s.peers ∧
    (s.echoSlot i sl k).classifier = s.classifier ∧ (s.echoSlot i sl k).pending = s.pending := by
  unfold State.echoSlot; (repeat' split) <;> simp

@[simp] theorem State.awaitResponse_same (s : State) (i : Nat) (k : Context) :
    (s.awaitResponse i k).channels = s.channels ∧ (s.awaitResponse i k).slots = s.slots ∧
    (s.awaitResponse i k).peers = s.peers ∧ (s.awaitResponse i k).classifier = s.classifier ∧
    (s.awaitResponse i k).store = s.store ∧ (s.awaitResponse i k).span = s.span ∧
    (s.awaitResponse i k).station = s.station ∧ (s.awaitResponse i k).port = s.port ∧
    (s.awaitResponse i k).events = s.events ∧ (s.awaitResponse i k).pending = s.pending := by
  simp [State.awaitResponse]

@[simp] theorem State.echoContext_same (s : State) (i : Nat) (k : Context) (m : ContextMessage) :
    (s.echoContext i k m).channels = s.channels ∧ (s.echoContext i k m).slots = s.slots ∧
    (s.echoContext i k m).peers = s.peers ∧ (s.echoContext i k m).classifier = s.classifier ∧
    (s.echoContext i k m).store = s.store ∧ (s.echoContext i k m).span = s.span ∧
    (s.echoContext i k m).station = s.station ∧ (s.echoContext i k m).port = s.port ∧
    (s.echoContext i k m).events = s.events ∧ (s.echoContext i k m).pending = s.pending := by
  unfold State.echoContext; (repeat' split) <;> simp

@[simp] theorem State.endWithdrawal_same (s : State) :
    (s.endWithdrawal).slots = s.slots ∧ (s.endWithdrawal).contexts = s.contexts ∧
    (s.endWithdrawal).classifier = s.classifier ∧ (s.endWithdrawal).store = s.store ∧
    (s.endWithdrawal).pending = s.pending := by
  simp [State.endWithdrawal]

@[simp] theorem State.endBeacon_same (s : State) (b : OwedBeacon) :
    (s.endBeacon b).slots = s.slots ∧ (s.endBeacon b).contexts = s.contexts ∧
    (s.endBeacon b).classifier = s.classifier ∧ (s.endBeacon b).store = s.store ∧ (s.endBeacon b).pending = s.pending := by
  unfold State.endBeacon; (repeat' split) <;> simp

@[simp] theorem State.failClaim_same (s : State) (i : Nat) (sl : Slot) :
    (s.failClaim i sl).contexts = s.contexts ∧ (s.failClaim i sl).peers = s.peers ∧
    (s.failClaim i sl).classifier = s.classifier ∧ (s.failClaim i sl).store = s.store ∧
    (s.failClaim i sl).span = s.span ∧ (s.failClaim i sl).pending = s.pending := by
  simp [State.failClaim]

@[simp] theorem State.abandonSlot_same (s : State) (i : Nat) (sl : Slot) (k : SlotMessage) :
    (s.abandonSlot i sl k).contexts = s.contexts ∧ (s.abandonSlot i sl k).peers = s.peers ∧
    (s.abandonSlot i sl k).classifier = s.classifier ∧ (s.abandonSlot i sl k).store = s.store ∧
    (s.abandonSlot i sl k).pending = s.pending := by
  unfold State.abandonSlot; (repeat' split) <;> simp

@[simp] theorem State.abandonContext_same (s : State) (i : Nat) (k : Context) (m : ContextMessage) :
    (s.abandonContext i k m).channels = s.channels ∧ (s.abandonContext i k m).slots = s.slots ∧
    (s.abandonContext i k m).peers = s.peers ∧ (s.abandonContext i k m).classifier = s.classifier ∧
    (s.abandonContext i k m).store = s.store ∧ (s.abandonContext i k m).span = s.span ∧
    (s.abandonContext i k m).station = s.station ∧ (s.abandonContext i k m).port = s.port ∧
    (s.abandonContext i k m).events = s.events ∧ (s.abandonContext i k m).pending = s.pending := by
  unfold State.abandonContext; (repeat' split) <;> simp

@[simp] theorem State.failSlot_same (s : State) (i : Nat) (sl : Slot) (o : SlotOwed) :
    (s.failSlot i sl o).contexts = s.contexts ∧ (s.failSlot i sl o).peers = s.peers ∧
    (s.failSlot i sl o).classifier = s.classifier ∧ (s.failSlot i sl o).store = s.store ∧
    (s.failSlot i sl o).pending = s.pending := by
  unfold State.failSlot; (repeat' split) <;> simp

@[simp] theorem State.failContext_same (s : State) (i : Nat) (k : Context) (o : ContextOwed) :
    (s.failContext i k o).channels = s.channels ∧ (s.failContext i k o).slots = s.slots ∧
    (s.failContext i k o).peers = s.peers ∧ (s.failContext i k o).classifier = s.classifier ∧
    (s.failContext i k o).store = s.store ∧ (s.failContext i k o).span = s.span ∧
    (s.failContext i k o).station = s.station ∧ (s.failContext i k o).port = s.port ∧
    (s.failContext i k o).events = s.events ∧ (s.failContext i k o).pending = s.pending := by
  unfold State.failContext; (repeat' split) <;> simp

@[simp] theorem State.failBeacon_same (s : State) (b : OwedBeacon) :
    (s.failBeacon b).slots = s.slots ∧ (s.failBeacon b).contexts = s.contexts ∧
    (s.failBeacon b).classifier = s.classifier ∧ (s.failBeacon b).store = s.store ∧
    (s.failBeacon b).pending = s.pending := by
  unfold State.failBeacon; (repeat' split) <;> simp

@[simp] theorem State.failReply_same (s : State) (r : Reply) (l : List Reply) :
    (s.failReply r l).channels = s.channels ∧ (s.failReply r l).slots = s.slots ∧
    (s.failReply r l).contexts = s.contexts ∧ (s.failReply r l).peers = s.peers ∧
    (s.failReply r l).classifier = s.classifier ∧ (s.failReply r l).store = s.store ∧
    (s.failReply r l).station = s.station ∧ (s.failReply r l).port = s.port ∧ (s.failReply r l).events = s.events ∧
    (s.failReply r l).pending = s.pending := by
  unfold State.failReply; (repeat' split) <;> simp

@[simp] theorem State.failData_same (s : State) :
    (s.failData).channels = s.channels ∧ (s.failData).contexts = s.contexts ∧ (s.failData).peers = s.peers ∧
    (s.failData).classifier = s.classifier ∧ (s.failData).span = s.span ∧ (s.failData).station = s.station ∧
    (s.failData).port = s.port ∧ (s.failData).events = s.events ∧ (s.failData).pending = s.pending := by
  unfold State.failData; (repeat' split) <;> simp

@[simp] theorem State.echoTo_same (s : State) (x : Sender) :
    (s.echoTo x).classifier = s.classifier ∧ (s.echoTo x).pending = s.pending := by
  unfold State.echoTo; (repeat' split) <;> simp

@[simp] theorem State.failTo_same (s : State) (x : Sender) :
    (s.failTo x).classifier = s.classifier ∧ (s.failTo x).pending = s.pending := by
  unfold State.failTo; (repeat' split) <;> simp

@[simp] theorem State.muteOnFailures_same (s : State) :
    (s.muteOnFailures).peers = s.peers ∧ (s.muteOnFailures).classifier = s.classifier ∧
    (s.muteOnFailures).pending = s.pending := by
  unfold State.muteOnFailures; (repeat' split) <;> simp

/-! ### Timers -/

@[simp] theorem State.commitClaim_same (s : State) (i : Nat) (sl : Slot) :
    (s.commitClaim i sl).contexts = s.contexts ∧ (s.commitClaim i sl).peers = s.peers ∧
    (s.commitClaim i sl).classifier = s.classifier ∧ (s.commitClaim i sl).store = s.store ∧
    (s.commitClaim i sl).span = s.span ∧ (s.commitClaim i sl).station = s.station ∧
    (s.commitClaim i sl).port = s.port ∧ (s.commitClaim i sl).events = s.events ∧
    (s.commitClaim i sl).pending = s.pending := by
  simp [State.commitClaim]

@[simp] theorem State.retryJoin_same (s : State) (i : Nat) (k : Context) :
    (s.retryJoin i k).slots = s.slots ∧ (s.retryJoin i k).peers = s.peers ∧
    (s.retryJoin i k).classifier = s.classifier ∧ (s.retryJoin i k).store = s.store ∧
    (s.retryJoin i k).span = s.span ∧ (s.retryJoin i k).pending = s.pending := by
  unfold State.retryJoin; (repeat' split) <;> simp

@[simp] theorem State.retryLeave_same (s : State) (i : Nat) (k : Context) :
    (s.retryLeave i k).slots = s.slots ∧ (s.retryLeave i k).peers = s.peers ∧
    (s.retryLeave i k).classifier = s.classifier ∧ (s.retryLeave i k).store = s.store ∧
    (s.retryLeave i k).span = s.span ∧ (s.retryLeave i k).pending = s.pending := by
  unfold State.retryLeave; (repeat' split) <;> simp

@[simp] theorem State.implyRelease_same (s : State) (i : Nat) (k : Context) :
    (s.implyRelease i k).slots = s.slots ∧ (s.implyRelease i k).peers = s.peers ∧
    (s.implyRelease i k).classifier = s.classifier ∧ (s.implyRelease i k).store = s.store ∧
    (s.implyRelease i k).span = s.span ∧ (s.implyRelease i k).port = s.port ∧
    (s.implyRelease i k).pending = s.pending := by
  simp [State.implyRelease]

@[simp] theorem State.endListening_same (s : State) :
    (s.endListening).channels = s.channels ∧ (s.endListening).slots = s.slots ∧
    (s.endListening).contexts = s.contexts ∧ (s.endListening).peers = s.peers ∧
    (s.endListening).classifier = s.classifier ∧ (s.endListening).store = s.store ∧ (s.endListening).span = s.span ∧
    (s.endListening).pending = s.pending := by
  simp [State.endListening]

/-! ### Requests -/

@[simp] theorem State.acceptStartup_same (s : State) (f : StartupRecord) :
    (s.acceptStartup f).channels = s.channels ∧ (s.acceptStartup f).slots = s.slots ∧
    (s.acceptStartup f).contexts = s.contexts ∧ (s.acceptStartup f).peers = s.peers ∧
    (s.acceptStartup f).classifier = s.classifier ∧ (s.acceptStartup f).span = s.span ∧
    (s.acceptStartup f).port = s.port ∧ (s.acceptStartup f).events = s.events ∧
    (s.acceptStartup f).pending = s.pending := by
  simp [State.acceptStartup]

@[simp] theorem State.acceptAttach_same (s : State) (t : Octet) :
    (s.acceptAttach t).channels = s.channels ∧ (s.acceptAttach t).slots = s.slots ∧
    (s.acceptAttach t).contexts = s.contexts ∧ (s.acceptAttach t).peers = s.peers ∧
    (s.acceptAttach t).classifier = s.classifier ∧ (s.acceptAttach t).store = s.store ∧
    (s.acceptAttach t).events = s.events ∧ (s.acceptAttach t).pending = s.pending := by
  simp [State.acceptAttach, State.enterRequest]

@[simp] theorem State.abandon_same (s : State) (a : Abandoned) :
    (s.abandon a).peers = s.peers ∧ (s.abandon a).classifier = s.classifier ∧ (s.abandon a).store = s.store ∧
    (s.abandon a).span = s.span ∧ (s.abandon a).pending = s.pending := by
  unfold State.abandon; (repeat' split) <;> simp

@[simp] theorem State.withdrawSlot_same (s : State) (r : Nat × Slot) :
    (s.withdrawSlot r).contexts = s.contexts ∧ (s.withdrawSlot r).peers = s.peers ∧
    (s.withdrawSlot r).classifier = s.classifier ∧ (s.withdrawSlot r).span = s.span ∧
    (s.withdrawSlot r).station = s.station ∧ (s.withdrawSlot r).port = s.port ∧
    (s.withdrawSlot r).events = s.events ∧ (s.withdrawSlot r).pending = s.pending := by
  unfold State.withdrawSlot; (repeat' split) <;> simp

@[simp] theorem State.withdrawContext_same (s : State) (r : Nat × Context) :
    (s.withdrawContext r).slots = s.slots ∧ (s.withdrawContext r).peers = s.peers ∧
    (s.withdrawContext r).classifier = s.classifier ∧ (s.withdrawContext r).store = s.store ∧
    (s.withdrawContext r).span = s.span ∧ (s.withdrawContext r).station = s.station ∧
    (s.withdrawContext r).port = s.port ∧ (s.withdrawContext r).events = s.events ∧
    (s.withdrawContext r).pending = s.pending := by
  unfold State.withdrawContext; (repeat' split) <;> simp

@[simp] theorem State.acceptWithdraw_same (s : State) (t : Octet) :
    (s.acceptWithdraw t).peers = s.peers ∧ (s.acceptWithdraw t).classifier = s.classifier ∧
    (s.acceptWithdraw t).span = s.span ∧ (s.acceptWithdraw t).pending = s.pending := by
  unfold State.acceptWithdraw
  refine ⟨?_, ?_, ?_, ?_⟩
  · simp only [State.testWithdrawal_same]
    rw [foldl_same (fun t => t.peers) State.withdrawContext (by simp), foldl_same (fun t => t.peers) State.withdrawSlot (by simp),
      foldl_same (fun t => t.peers) State.abandon (by simp)]
    simp [State.enterRequest]
  · simp only [State.testWithdrawal_same]
    rw [foldl_same (fun t => t.classifier) State.withdrawContext (by simp), foldl_same (fun t => t.classifier) State.withdrawSlot (by simp),
      foldl_same (fun t => t.classifier) State.abandon (by simp)]
    simp [State.enterRequest]
  · simp only [State.testWithdrawal_same]
    rw [foldl_same (fun t => t.span) State.withdrawContext (by simp), foldl_same (fun t => t.span) State.withdrawSlot (by simp),
      foldl_same (fun t => t.span) State.abandon (by simp)]
    simp [State.enterRequest]
  · simp only [State.testWithdrawal_same]
    rw [foldl_same (fun t => t.pending) State.withdrawContext (by simp), foldl_same (fun t => t.pending) State.withdrawSlot (by simp),
      foldl_same (fun t => t.pending) State.abandon (by simp)]
    simp [State.enterRequest]

@[simp] theorem State.acceptClaim_same (s : State) (t : Octet) (c : Channel) (i : Nat) :
    (s.acceptClaim t c i).contexts = s.contexts ∧ (s.acceptClaim t c i).peers = s.peers ∧
    (s.acceptClaim t c i).classifier = s.classifier ∧ (s.acceptClaim t c i).store = s.store ∧
    (s.acceptClaim t c i).span = s.span ∧ (s.acceptClaim t c i).station = s.station ∧
    (s.acceptClaim t c i).events = s.events ∧ (s.acceptClaim t c i).pending = s.pending := by
  simp [State.acceptClaim]

@[simp] theorem State.acceptRelease_same (s : State) (t : Octet) (c : Channel) :
    (s.acceptRelease t c).contexts = s.contexts ∧ (s.acceptRelease t c).peers = s.peers ∧
    (s.acceptRelease t c).classifier = s.classifier ∧ (s.acceptRelease t c).span = s.span ∧
    (s.acceptRelease t c).station = s.station ∧ (s.acceptRelease t c).events = s.events ∧
    (s.acceptRelease t c).pending = s.pending := by
  unfold State.acceptRelease; (repeat' split) <;> simp

@[simp] theorem State.acceptSend_same (s : State) (c : Channel) (p : List Octet) :
    (s.acceptSend c p).channels = s.channels ∧ (s.acceptSend c p).contexts = s.contexts ∧
    (s.acceptSend c p).peers = s.peers ∧ (s.acceptSend c p).classifier = s.classifier ∧
    (s.acceptSend c p).span = s.span ∧ (s.acceptSend c p).station = s.station ∧
    (s.acceptSend c p).events = s.events ∧ (s.acceptSend c p).pending = s.pending := by
  simp only [State.acceptSend]; (repeat' split) <;> simp

@[simp] theorem State.acceptJoin_same (s : State) (t : Octet) (c : Channel) (i : Nat) :
    (s.acceptJoin t c i).slots = s.slots ∧ (s.acceptJoin t c i).peers = s.peers ∧
    (s.acceptJoin t c i).classifier = s.classifier ∧ (s.acceptJoin t c i).store = s.store ∧
    (s.acceptJoin t c i).span = s.span ∧ (s.acceptJoin t c i).station = s.station ∧
    (s.acceptJoin t c i).events = s.events ∧ (s.acceptJoin t c i).pending = s.pending := by
  simp [State.acceptJoin]

@[simp] theorem State.acceptLeave_same (s : State) (t : Octet) (c : Channel) :
    (s.acceptLeave t c).slots = s.slots ∧ (s.acceptLeave t c).peers = s.peers ∧
    (s.acceptLeave t c).classifier = s.classifier ∧ (s.acceptLeave t c).store = s.store ∧
    (s.acceptLeave t c).span = s.span ∧ (s.acceptLeave t c).station = s.station ∧
    (s.acceptLeave t c).events = s.events ∧ (s.acceptLeave t c).pending = s.pending := by
  unfold State.acceptLeave; (repeat' split) <;> simp

@[simp] theorem State.abortClaim_same (s : State) (t : Octet) (c : Channel) :
    (s.abortClaim t c).contexts = s.contexts ∧ (s.abortClaim t c).peers = s.peers ∧
    (s.abortClaim t c).classifier = s.classifier ∧ (s.abortClaim t c).store = s.store ∧
    (s.abortClaim t c).span = s.span ∧ (s.abortClaim t c).pending = s.pending := by
  unfold State.abortClaim; (repeat' split) <;> simp

@[simp] theorem State.abortJoin_same (s : State) (t : Octet) (c : Channel) :
    (s.abortJoin t c).slots = s.slots ∧ (s.abortJoin t c).peers = s.peers ∧
    (s.abortJoin t c).classifier = s.classifier ∧ (s.abortJoin t c).store = s.store ∧
    (s.abortJoin t c).span = s.span ∧ (s.abortJoin t c).pending = s.pending := by
  unfold State.abortJoin; (repeat' split) <;> simp

@[simp] theorem State.hear_pending (s : State) (h : Header) (b : Body) : (s.hear h b).pending = s.pending := by
  cases b <;> simp [State.hear]

@[simp] theorem State.receive_pending (s : State) (h : Header) (b : Option Body) :
    (s.receive h b).pending = s.pending := by
  unfold State.receive
  (repeat' split) <;> simp

/-- Descriptors that leave change the buffers, the counts and the contexts alone. -/
@[simp] theorem State.dequeueds_same (l : List Descriptor) (s : State) :
    (l.foldl State.dequeued s).slots = s.slots ∧ (l.foldl State.dequeued s).peers = s.peers ∧
    (l.foldl State.dequeued s).classifier = s.classifier ∧ (l.foldl State.dequeued s).span = s.span ∧
    (l.foldl State.dequeued s).station = s.station ∧ (l.foldl State.dequeued s).port = s.port ∧
    (l.foldl State.dequeued s).events = s.events ∧ (l.foldl State.dequeued s).pending = s.pending := by
  refine ⟨?_, ?_, ?_, ?_, ?_, ?_, ?_, ?_⟩
  · exact foldl_same (fun t => t.slots) State.dequeued (by simp) l s
  · exact foldl_same (fun t => t.peers) State.dequeued (by simp) l s
  · exact foldl_same (fun t => t.classifier) State.dequeued (by simp) l s
  · exact foldl_same (fun t => t.span) State.dequeued (by simp) l s
  · exact foldl_same (fun t => t.station) State.dequeued (by simp) l s
  · exact foldl_same (fun t => t.port) State.dequeued (by simp) l s
  · exact foldl_same (fun t => t.events) State.dequeued (by simp) l s
  · exact foldl_same (fun t => t.pending) State.dequeued (by simp) l s

end Sys2Proof.Machine
end

