-- ==== Sys2Proof/Laws/Tables.lean ====
section
/-! SUPPORT. What the named updates do to an entry, a slot, a context and a peer, seen through the lookups a reader uses,
and that the tables keep their canonical form. -/

namespace Sys2Proof.Machine

/-! ### Channel Table rows -/

/-- A row written is read back; every other row is as it was. -/
theorem getD_find?_putEntry (m : FMap ChannelEntry) (k j : Nat) (e : ChannelEntry) :
    (FMap.find? (putEntry m k e) j).getD ChannelEntry.initial =
      if j = k then e else (FMap.find? m j).getD ChannelEntry.initial := by
  unfold putEntry
  split
  · subst_vars
    rw [FMap.find?_erase]
    split <;> simp
  · rw [FMap.find?_insert]
    split <;> simp

/-- A row changed by a map that keeps the power-on entry. -/
theorem getD_find?_mapEntries (f : ChannelEntry → ChannelEntry) (hf : f ChannelEntry.initial = ChannelEntry.initial)
    (m : FMap ChannelEntry) (j : Nat) :
    (FMap.find? (mapEntries f m) j).getD ChannelEntry.initial =
      f ((FMap.find? m j).getD ChannelEntry.initial) := by
  induction m with
  | nil => simp [mapEntries, hf]
  | cons row rest ih =>
    obtain ⟨k, v⟩ := row
    have h : mapEntries f ((k, v) :: rest) = putEntry (mapEntries f rest) k (f v) := rfl
    rw [h, getD_find?_putEntry, ih, FMap.find?_cons]
    by_cases hk : j = k
    · simp [hk]
    · rw [if_neg hk, if_neg (Ne.symm hk)]

/-- Writing a row keeps the canonical form. -/
theorem wf_putEntry {m : FMap ChannelEntry} {bound k : Nat} (hm : FMap.wf bound m = true) (hk : k < bound)
    (e : ChannelEntry) : FMap.wf bound (putEntry m k e) = true := by
  unfold putEntry
  split
  · exact FMap.wf_erase hm k
  · exact FMap.wf_insert hm hk e

/-- Changing every row keeps the canonical form. -/
theorem wf_mapEntries {bound : Nat} (f : ChannelEntry → ChannelEntry) {m : FMap ChannelEntry}
    (hm : FMap.wf bound m = true) : FMap.wf bound (mapEntries f m) = true := by
  induction m with
  | nil => rfl
  | cons row rest ih =>
    have hc := (FMap.wf_cons bound row.1 row.2 rest).mp hm
    exact wf_putEntry (ih hc.2.2) hc.1 _

theorem State.entry_of_channels {s t : State} (h : t.channels = s.channels) (c : Channel) : t.entry c = s.entry c := by
  unfold State.entry; rw [h]

/-- A map of the whole table, seen through an entry. -/
theorem State.entry_of_mapEntries {s t : State} {f : ChannelEntry → ChannelEntry}
    (hf : f ChannelEntry.initial = ChannelEntry.initial) (h : t.channels = mapEntries f s.channels) (c : Channel) :
    t.entry c = f (s.entry c) := by
  unfold State.entry; rw [h, getD_find?_mapEntries f hf]

/-- The entry written is read back; every other entry is as it was. -/
theorem State.entry_setEntry (s : State) (c d : Channel) (e : ChannelEntry) :
    (s.setEntry c e).entry d = if d = c then e else s.entry d := by
  unfold State.entry
  rw [State.setEntry_channels, getD_find?_putEntry]
  by_cases h : d = c
  · simp [h]
  · rw [if_neg (fun h' => h (BitVec.eq_of_toNat_eq h')), if_neg h]

@[simp] theorem State.entry_setEntry_self (s : State) (c : Channel) (e : ChannelEntry) :
    (s.setEntry c e).entry c = e := by
  rw [State.entry_setEntry, if_pos rfl]

theorem State.entry_setEntry_other (s : State) {c d : Channel} (e : ChannelEntry) (h : d ≠ c) :
    (s.setEntry c e).entry d = s.entry d := by
  rw [State.entry_setEntry, if_neg h]

/-! ### Slots, contexts and peers -/

theorem State.slotAt_of_slots {s t : State} (h : t.slots = s.slots) (i : Nat) : t.slotAt i = s.slotAt i := by
  unfold State.slotAt; rw [h]

theorem State.contextAt_of_contexts {s t : State} (h : t.contexts = s.contexts) (i : Nat) :
    t.contextAt i = s.contextAt i := by
  unfold State.contextAt; rw [h]

theorem State.peerAt_of_peers {s t : State} (h : t.peers = s.peers) (x : Station) : t.peerAt x = s.peerAt x := by
  unfold State.peerAt; rw [h]

theorem State.slotAt_of_insert {s t : State} {i : Nat} {sl : Slot} (h : t.slots = FMap.insert s.slots i sl) (j : Nat) :
    t.slotAt j = if j = i then some sl else s.slotAt j := by
  unfold State.slotAt; rw [h, FMap.find?_insert]

theorem State.slotAt_of_erase {s t : State} {i : Nat} (h : t.slots = FMap.erase s.slots i) (j : Nat) :
    t.slotAt j = if j = i then none else s.slotAt j := by
  unfold State.slotAt; rw [h, FMap.find?_erase]

theorem State.contextAt_of_insert {s t : State} {i : Nat} {k : Context} (h : t.contexts = FMap.insert s.contexts i k)
    (j : Nat) : t.contextAt j = if j = i then some k else s.contextAt j := by
  unfold State.contextAt; rw [h, FMap.find?_insert]

theorem State.contextAt_of_erase {s t : State} {i : Nat} (h : t.contexts = FMap.erase s.contexts i) (j : Nat) :
    t.contextAt j = if j = i then none else s.contextAt j := by
  unfold State.contextAt; rw [h, FMap.find?_erase]

theorem State.peerAt_of_insert {s t : State} {x : Station} {p : Peer} (h : t.peers = FMap.insert s.peers x.toNat p)
    (y : Station) : t.peerAt y = if y = x then some p else s.peerAt y := by
  unfold State.peerAt; rw [h, FMap.find?_insert]
  by_cases hy : y = x
  · simp [hy]
  · rw [if_neg (fun h' => hy (BitVec.eq_of_toNat_eq h')), if_neg hy]

theorem State.peerAt_of_erase {s t : State} {x : Station} (h : t.peers = FMap.erase s.peers x.toNat) (y : Station) :
    t.peerAt y = if y = x then none else s.peerAt y := by
  unfold State.peerAt; rw [h, FMap.find?_erase]
  by_cases hy : y = x
  · simp [hy]
  · rw [if_neg (fun h' => hy (BitVec.eq_of_toNat_eq h')), if_neg hy]

/-- The slot an entry leads to is the slot of the index the entry names. -/
theorem State.slotOf_eq_some {s : State} {c : Channel} {i : Nat} {sl : Slot} :
    s.slotOf c = some (i, sl) ↔ (s.entry c).slotIndex = some i ∧ s.slotAt i = some sl := by
  unfold State.slotOf State.slotAt
  cases h : (s.entry c).slotIndex with
  | none => simp
  | some j =>
    simp only [Option.bind_some, Option.map_eq_some_iff, Prod.mk.injEq, Option.some.injEq]
    constructor
    · rintro ⟨a, ha, rfl, rfl⟩; exact ⟨rfl, ha⟩
    · rintro ⟨rfl, ha⟩; exact ⟨sl, ha, rfl, rfl⟩

/-- The context an entry leads to is the context of the index the entry names. -/
theorem State.contextOf_eq_some {s : State} {c : Channel} {i : Nat} {k : Context} :
    s.contextOf c = some (i, k) ↔ (s.entry c).contextIndex = some i ∧ s.contextAt i = some k := by
  unfold State.contextOf State.contextAt
  cases h : (s.entry c).contextIndex with
  | none => simp
  | some j =>
    simp only [Option.bind_some, Option.map_eq_some_iff, Prod.mk.injEq, Option.some.injEq]
    constructor
    · rintro ⟨a, ha, rfl, rfl⟩; exact ⟨rfl, ha⟩
    · rintro ⟨rfl, ha⟩; exact ⟨k, ha, rfl, rfl⟩

/-- An entry that names no context leads to none. -/
theorem State.contextOf_eq_none {s : State} {c : Channel} (h : (s.entry c).contextIndex = none) :
    s.contextOf c = none := by
  unfold State.contextOf; rw [h]; rfl

theorem State.slotOf_eq_none {s : State} {c : Channel} (h : (s.entry c).slotIndex = none) : s.slotOf c = none := by
  unfold State.slotOf; rw [h]; rfl

/-! ### Markers -/

/-- With no marker at the FIFO's head nothing is consumed. -/
theorem State.consumeMarkers_none {s : State} (h : headMarkers s.store.fifo = []) : s.consumeMarkers = s := by
  have hw : ∀ l : List FifoEntry, headMarkers l = [] → withoutHeadMarkers l = l := by
    intro l hl
    match l with
    | [] => rfl
    | .data .. :: _ => rfl
    | .marker c :: rest => simp [headMarkers] at hl
  unfold State.consumeMarkers
  rw [h, hw _ h]
  rfl

/-- No marker stands at the head of what is left of a FIFO. -/
theorem headMarkers_withoutHeadMarkers (l : List FifoEntry) : headMarkers (withoutHeadMarkers l) = [] := by
  induction l with
  | nil => rfl
  | cons e rest ih =>
    match e with
    | .data .. => rfl
    | .marker c => simpa [withoutHeadMarkers] using ih

/-- Consuming markers leaves the store but the FIFO, and no marker at its head. -/
theorem State.consumeMarkers_store (s : State) :
    s.consumeMarkers.store = { s.store with fifo := withoutHeadMarkers s.store.fifo } := by
  unfold State.consumeMarkers
  rw [foldl_same (fun t => t.store) State.takeSnapshot (by simp)]
  rfl

/-- Markers hold no buffer. -/
theorem dataEntries_withoutHeadMarkers (l : List FifoEntry) : dataEntries (withoutHeadMarkers l) = dataEntries l := by
  induction l with
  | nil => rfl
  | cons e rest ih =>
    match e with
    | .data .. => rfl
    | .marker c => simpa [withoutHeadMarkers, dataEntries, FifoEntry.isData] using ih

end Sys2Proof.Machine
end

