-- ==== Sys2Proof/Laws/Ops.lean ====
section
/-! SUPPORT. One law for each shared operation, saying once what it does: notifications, completions, the withdrawal's test,
slots and contexts freed, replies, queues, markers, departures, the states of the station as a whole. -/

namespace Sys2Proof.Machine

/-! ### Parts -/

theorem ChangesOnly.refl (parts : List Part) (s : State) : ChangesOnly parts s s :=
  ⟨fun p _ => by cases p <;> rfl, rfl⟩

theorem ChangesOnly.mono {parts parts' : List Part} {s t : State} (h : ChangesOnly parts s t)
    (hp : ∀ p ∈ parts, p ∈ parts') : ChangesOnly parts' s t :=
  ⟨fun p hn => h.1 p (fun hm => hn (hp p hm)), h.2⟩

theorem ChangesOnly.trans {parts : List Part} {s u t : State} (h : ChangesOnly parts s u) (h' : ChangesOnly parts u t) :
    ChangesOnly parts s t := by
  refine ⟨fun p hn => ?_, h'.2.trans h.2⟩
  have a := h.1 p hn
  have b := h'.1 p hn
  cases p <;> simp_all [Part.same]

/-! ### Events and requests -/

/-- A notification changes the Event Queue alone. -/
theorem State.notify_events (s : State) (n : Notification) :
    (s.notify n).events =
      if s.eventSum < 64 then ⟨s.events.records ++ [.notification n s.events.lost], 0⟩
      else ⟨s.events.records, countLost s.events.lost⟩ := by
  unfold State.notify
  split <;> rename_i h <;> simp only [Config.eventPlaces] at h <;> simp

/-- A counter goes up as R166 says. -/
theorem countUp_eq (c : Counter) : countUp c = Counted c := rfl

/-- A notification is stored or counted as R184 says. -/
theorem State.notify_eq (s : State) (n : Notification) : s.notify n = Notified n s := by
  unfold State.notify Notified State.eventSum Config.eventPlaces countLost
  split <;> rfl

/-- The sum of R180 after a notification. -/
theorem State.notify_eventSum_le {s : State} (n : Notification) (h : s.eventSum ≤ 64) : (s.notify n).eventSum ≤ 64 := by
  unfold State.eventSum at *
  rw [State.notify_events]
  simp only [State.notify_same]
  split
  · rename_i h'
    unfold State.eventSum at h'
    simp only [List.length_append, List.length_singleton]
    omega
  · exact h

/-- A request that is found has the tag it was found by, and is in the table. -/
theorem State.requestWith_spec {s : State} {tag : Octet} {r : PendingRequest} (h : s.requestWith tag = some r) :
    r ∈ s.port.requests ∧ r.tag = tag :=
  ⟨List.mem_of_find?_eq_some h, by simpa using List.find?_some h⟩

/-- A completion removes the request and stores its record, whatever the withdrawal's test does. -/
theorem State.complete_some {s : State} {tag : Octet} {r : PendingRequest} (e : Ending) (h : s.requestWith tag = some r) :
    (s.complete tag e).port = { s.port with requests := s.port.requests.eraseP (fun q => q.tag = tag) } ∧
      (s.complete tag e).events = { s.events with records := s.events.records ++ [e.completes r] } := by
  unfold State.complete
  rw [h]
  simp

theorem State.complete_none {s : State} {tag : Octet} (e : Ending) (h : s.requestWith tag = none) :
    s.complete tag e = s := by
  unfold State.complete; rw [h]

/-- What a held tag's completion does to the Pending Request Table and the Event Queue. -/
theorem State.completeHeld_ended (s : State) (tag : Option Octet) (e : Ending) : Ended tag e s (s.completeHeld tag e) := by
  unfold Ended
  cases tag with
  | none => exact ⟨rfl, rfl⟩
  | some t =>
    show match s.requestWith t with
      | none => _
      | some r => _
    cases h : s.requestWith t with
    | none =>
      show (s.complete t e).port = _ ∧ (s.complete t e).events = _
      rw [State.complete_none e h]
      exact ⟨rfl, rfl⟩
    | some r =>
      have hr := (State.requestWith_spec h).2
      subst hr
      exact State.complete_some e h

/-- The ending of a request depends on the Pending Request Table and the Event Queue alone. -/
theorem Ended.of_same {tag : Option Octet} {e : Ending} {s u t : State} (h : Ended tag e u t) (hp : u.port = s.port)
    (he : u.events = s.events) : Ended tag e s t := by
  have hr : u.requestWith = s.requestWith := by funext x; unfold State.requestWith; rw [hp]
  unfold Ended at *
  rw [hr, hp, he] at h
  exact h

theorem Ended.congr {tag : Option Octet} {e : Ending} {s t t' : State} (h : Ended tag e s t) (hp : t'.port = t.port)
    (he : t'.events = t.events) : Ended tag e s t' := by
  unfold Ended at *
  rw [hp, he]
  exact h

/-! ### The withdrawal's test -/

theorem State.nothingRemains_of_same {s t : State} (h1 : t.slots = s.slots) (h2 : t.contexts = s.contexts)
    (h3 : t.port.requests = s.port.requests) : t.nothingRemains = s.nothingRemains := by
  unfold State.nothingRemains; rw [h1, h2, h3]

theorem State.departingOwed_of_station {s t : State} (h : t.station = s.station) : t.departingOwed = s.departingOwed := by
  unfold State.departingOwed; rw [h]

/-- The test of R159 on a state whose Station Controller is still s's. -/
theorem State.testWithdrawal_tested {s u : State} (h : u.station = s.station) :
    WithdrawalTested s u.testWithdrawal := by
  have hn : u.testWithdrawal.nothingRemains = u.nothingRemains := State.nothingRemains_of_same (by simp) (by simp) (by simp)
  unfold WithdrawalTested
  rw [hn, ← h, ← State.departingOwed_of_station h]
  unfold State.testWithdrawal
  split <;> rfl

/-- Tests follow one another while nothing that remained ends. -/
theorem WithdrawalTested.trans {s u t : State} (h : WithdrawalTested s u) (h' : WithdrawalTested u t)
    (hr : u.nothingRemains = true → t.nothingRemains = true) : WithdrawalTested s t := by
  unfold WithdrawalTested at *
  by_cases hm : s.station.mode = .withdrawing
  · by_cases hd : s.departingOwed = false
    · by_cases hu : u.nothingRemains = true
      · rw [if_pos ⟨hm, hu, hd⟩] at h
        have hdu : u.departingOwed = true := by unfold State.departingOwed; rw [h]
        rw [if_neg (by simp [hdu])] at h'
        rw [if_pos ⟨hm, hr hu, hd⟩, h', h]
      · rw [if_neg (by simp [hu])] at h
        rw [State.departingOwed_of_station h, h] at h'
        exact h'
    · rw [if_neg (by simp [hd])] at h ⊢
      rw [State.departingOwed_of_station h, h, if_neg (by simp [hd])] at h'
      exact h'
  · rw [if_neg (by simp [hm])] at h ⊢
    rw [h, if_neg (by simp [hm])] at h'
    exact h'

/-- The test depends on slots, contexts, requests and the Station Controller alone. -/
theorem WithdrawalTested.congr {s t t' : State} (h : WithdrawalTested s t) (h0 : t'.station = t.station)
    (h1 : t'.slots = t.slots) (h2 : t'.contexts = t.contexts) (h3 : t'.port.requests = t.port.requests) :
    WithdrawalTested s t' := by
  unfold WithdrawalTested at *
  rw [State.nothingRemains_of_same h1 h2 h3, h0]
  exact h

theorem WithdrawalTested.of_station {s s' t : State} (h : WithdrawalTested s t) (h0 : s'.station = s.station) :
    WithdrawalTested s' t := by
  unfold WithdrawalTested at *
  rw [h0, State.departingOwed_of_station h0]
  exact h

/-- A completion leaves nothing remaining where nothing remained. -/
theorem State.completeHeld_nothingRemains {s : State} (tag : Option Octet) (e : Ending) (h : s.nothingRemains = true) :
    (s.completeHeld tag e).nothingRemains = true := by
  have hs := State.completeHeld_same s tag e
  have he := State.completeHeld_ended s tag e
  unfold State.nothingRemains at *
  unfold Ended at he
  simp only [Bool.and_eq_true] at h ⊢
  refine ⟨⟨by simp [h.1.1], by simp [h.1.2]⟩, ?_⟩
  cases hb : tag.bind s.requestWith with
  | none => rw [hb] at he; rw [he.1]; exact h.2
  | some r =>
    rw [hb] at he
    rw [he.1]
    simp only [List.all_eq_true] at h ⊢
    intro x hx
    exact h.2 x (List.mem_of_mem_eraseP hx)

/-- A test, and then a completion, whose own test changes nothing the first has decided. -/
theorem WithdrawalTested.completeHeld {s u : State} (h : WithdrawalTested s u) (tag : Option Octet) (e : Ending) :
    WithdrawalTested s (u.completeHeld tag e) := by
  cases tag with
  | none => exact h
  | some t =>
    cases hr : u.requestWith t with
    | none =>
      show WithdrawalTested s (u.complete t e)
      rw [State.complete_none e hr]
      exact h
    | some r =>
      refine h.trans ?_ (State.completeHeld_nothingRemains (some t) e)
      show WithdrawalTested u (u.complete t e)
      unfold State.complete
      rw [hr]
      exact State.testWithdrawal_tested rfl

/-- Where the station is not WITHDRAWING the test changes nothing. -/
theorem WithdrawalTested.station_of_mode {s t : State} (h : WithdrawalTested s t) (hm : s.station.mode ≠ .withdrawing) :
    t.station = s.station := by
  unfold WithdrawalTested at h
  rw [if_neg (by simp [hm])] at h
  exact h

/-! ### Slots and contexts freed -/

/-- A slot freed: the index is free, the entry takes its view, the withdrawal's test is made. -/
theorem State.freeSlot_spec (s : State) (i : Nat) (c : Channel) (x : Option Station) :
    (s.freeSlot i c x).slotAt i = none ∧ OtherSlots i s (s.freeSlot i c x) ∧
      (s.freeSlot i c x).entry c =
        (match x with
         | some y => (s.entry c).toRemote y
         | none => (s.entry c).toFree) ∧
      OtherEntries c s (s.freeSlot i c x) ∧ WithdrawalTested s (s.freeSlot i c x) := by
  have hch : (s.freeSlot i c x).channels = (s.setEntry c (match x with
         | some y => (s.entry c).toRemote y
         | none => (s.entry c).toFree)).channels := by
    unfold State.freeSlot; cases x <;> simp
  have hsl : (s.freeSlot i c x).slots = FMap.erase s.slots i := by unfold State.freeSlot; simp
  refine ⟨?_, ?_, ?_, ?_, ?_⟩
  · rw [State.slotAt_of_erase hsl, if_pos rfl]
  · intro j hj; rw [State.slotAt_of_erase hsl, if_neg hj]
  · rw [State.entry_of_channels hch, State.entry_setEntry_self]
  · intro d hd; rw [State.entry_of_channels hch, State.entry_setEntry_other _ _ hd]
  · exact State.testWithdrawal_tested rfl

/-- A context freed: the index is free, the entry shows no subscription, the withdrawal's test is made. -/
theorem State.freeContext_spec (s : State) (i : Nat) (c : Channel) :
    (s.freeContext i c).contextAt i = none ∧ OtherContexts i s (s.freeContext i c) ∧
      (s.freeContext i c).entry c = (s.entry c).unsubscribed ∧ OtherEntries c s (s.freeContext i c) ∧
      WithdrawalTested s (s.freeContext i c) := by
  have hsl : (s.freeContext i c).contexts = FMap.erase s.contexts i := by unfold State.freeContext; simp
  have hch : (s.freeContext i c).channels = (s.setEntry c (s.entry c).unsubscribed).channels := by
    unfold State.freeContext; simp
  refine ⟨?_, ?_, ?_, ?_, ?_⟩
  · rw [State.contextAt_of_erase hsl, if_pos rfl]
  · intro j hj; rw [State.contextAt_of_erase hsl, if_neg hj]
  · rw [State.entry_of_channels hch, State.entry_setEntry_self]
  · intro d hd; rw [State.entry_of_channels hch, State.entry_setEntry_other _ _ hd]
  · exact State.testWithdrawal_tested rfl

/-! ### Replies -/

/-- A reply added leaves the Span Interface as R144 says. -/
theorem State.addReply_span (s : State) (kind : ReplyKind) (c : Channel) (x : Station) :
    (s.addReply kind c x).span = SpanAfterReply s kind c x := by
  have ht : (s.transmitterOn = false) ↔ (s.station.mode = .detached ∨ s.station.mode = .muted .spanFailures ∨
      s.station.mode = .muted .duplicateNumber) := by
    unfold State.transmitterOn
    cases s.station.mode with
    | muted r => cases r <;> simp
    | _ => simp
  unfold State.addReply SpanAfterReply
  simp only [ht, Config.replyPlaces, countUp]
  split
  · rfl
  · split
    · rfl
    · split <;> rfl

/-! ### Transactions of the local port -/

/-- A transaction that the port takes has its effect. -/
theorem State.transact_open {s : State} (h : PortOpen s) (effect : State → State) : s.transact effect = effect s := by
  unfold State.transact; rw [h.1, h.2]; rfl

/-- While RSTn is asserted a transaction has none (R189). -/
theorem State.transact_inReset {s : State} (h : s.station.inReset = true) (effect : State → State) :
    s.transact effect = s := by unfold State.transact; rw [h]; rfl

/-- A transaction that was open when RSTn was deasserted is not taken, and ends (R189). -/
theorem State.transact_unread {s : State} (h : s.station.inReset = false) (hu : s.port.unread = true)
    (effect : State → State) : s.transact effect = { s with port := { s.port with unread := false } } := by
  unfold State.transact; rw [h, hu]; rfl

/-! ### Receive queues -/

/-- A queue's limit is the field R151 names. -/
theorem queueLimit_eq (r : StartupRecord) (q : QueueName) : queueLimit r q = LimitOf r q := by cases q <;> rfl

/-- A group's queue is the one R91 names. -/
theorem queueOfGroup_eq (g : Fin 4) : queueOfGroup g = DeliveryQueue g := rfl

@[simp] theorem CellStore.queue_setQueue_self (c : CellStore) (q : QueueName) (r : ReceiveQueue) :
    (c.setQueue q r).queue q = r := by cases q <;> rfl

theorem CellStore.queue_setQueue_other (c : CellStore) {q q' : QueueName} (r : ReceiveQueue) (h : q' ≠ q) :
    (c.setQueue q r).queue q' = c.queue q' := by cases q <;> cases q' <;> first | rfl | exact absurd rfl h

@[simp] theorem CellStore.setQueue_free (c : CellStore) (q : QueueName) (r : ReceiveQueue) :
    (c.setQueue q r).free = c.free := by cases q <;> rfl

@[simp] theorem CellStore.setQueue_fifo (c : CellStore) (q : QueueName) (r : ReceiveQueue) :
    (c.setQueue q r).fifo = c.fifo := by cases q <;> rfl

@[simp] theorem CellStore.setQueue_sendFailures (c : CellStore) (q : QueueName) (r : ReceiveQueue) :
    (c.setQueue q r).sendFailures = c.sendFailures := by cases q <;> rfl

@[simp] theorem CellStore.queue_free (c : CellStore) (n : Nat) (q : QueueName) :
    ({ c with free := n } : CellStore).queue q = c.queue q := by cases q <;> rfl

@[simp] theorem CellStore.queue_fifo (c : CellStore) (l : List FifoEntry) (q : QueueName) :
    ({ c with fifo := l } : CellStore).queue q = c.queue q := by cases q <;> rfl

/-- A cell offered to a receive queue is enqueued or dropped (R93, R94). -/
theorem State.offer_spec (s : State) (q : QueueName) (d : Descriptor) : Offered q d s (s.offer q d) := by
  unfold Offered State.offer
  rw [← queueLimit_eq]
  by_cases h : 0 < s.store.free ∧ (s.store.queue q).cells.length < queueLimit s.record q
  · rw [if_pos h]
    refine ⟨?_, ?_, ?_, ?_⟩
    · intro q' hq
      exact (CellStore.queue_free _ _ q').trans (CellStore.queue_setQueue_other _ _ hq)
    · simp
    · simp
    · simp only [h, and_self, ↓reduceIte]
      refine ⟨(CellStore.queue_free _ _ q).trans (CellStore.queue_setQueue_self ..), by simp, ?_, ?_, ?_⟩
      · rw [State.entry_setEntry_self]; rfl
      · intro c hc; rw [State.entry_setEntry_other _ _ hc]; rfl
      · exact ⟨fun p hp => by cases p <;> simp_all [Part.same], by simp⟩
  · rw [if_neg h, if_neg h]
    refine ⟨?_, ?_, ?_, ?_⟩
    · intro q' hq; split <;> simp [CellStore.queue_setQueue_other _ _ hq]
    · split <;> simp
    · split <;> simp
    · refine ⟨?_, ?_, ?_, ?_⟩
      · split <;> simp [countUp_eq]
      · split <;> simp
      · split
        · simp
        · rw [← State.notify_eq, State.notify_events, State.notify_events]; rfl
      · refine ⟨fun p hp => ?_, ?_⟩
        · split <;> cases p <;> simp_all [Part.same]
        · split <;> simp

/-! ### Markers and releases -/

/-- The snapshot of a slot is that of R45. -/
theorem State.snapshot_eq (s : State) (sl : Slot) : s.snapshot sl = SnapshotOf s sl := rfl

/-- A second snapshot of a slot changes nothing. -/
theorem SnapshotOf_idem (s : State) (sl : Slot) : SnapshotOf s (SnapshotOf s sl) = SnapshotOf s sl := by
  unfold SnapshotOf
  split <;> rfl

theorem State.takeSnapshot_slotAt (s : State) (c : Channel) (i : Nat) :
    (s.takeSnapshot c).slotAt i =
      if (s.entry c).slotIndex = some i then (s.slotAt i).map (SnapshotOf s) else s.slotAt i := by
  unfold State.takeSnapshot
  by_cases h : (s.entry c).slotIndex = some i
  · rw [if_pos h]
    cases hs : s.slotAt i with
    | none =>
      have : s.slotOf c = none := by
        unfold State.slotOf; rw [h]; unfold State.slotAt at hs; simp [hs]
      rw [this]; exact hs
    | some sl =>
      rw [State.slotOf_eq_some.mpr ⟨h, hs⟩]
      dsimp only
      rw [State.slotAt_of_insert (State.putSlot_slots ..), if_pos rfl, State.snapshot_eq]
      rfl
  · rw [if_neg h]
    split
    · rename_i j sl hj
      have hj := (State.slotOf_eq_some.mp hj).1
      rw [State.slotAt_of_insert (State.putSlot_slots ..), if_neg]
      intro hij; exact h (hij ▸ hj)
    · rfl

/-- The slots after a list of markers has been consumed: each slot of a marker's channel has its snapshot. -/
theorem State.takeSnapshots_slotAt (l : List Channel) (s : State) (i : Nat) :
    (Consumed l s i → (l.foldl State.takeSnapshot s).slotAt i = (s.slotAt i).map (SnapshotOf s)) ∧
      (¬ Consumed l s i → (l.foldl State.takeSnapshot s).slotAt i = s.slotAt i) := by
  induction l generalizing s with
  | nil => exact ⟨fun ⟨d, hd, _⟩ => (List.not_mem_nil hd).elim, fun _ => rfl⟩
  | cons c rest ih =>
    have hch : (s.takeSnapshot c).channels = s.channels := by simp
    have hst : SnapshotOf (s.takeSnapshot c) = SnapshotOf s := by
      funext sl; unfold SnapshotOf State.record; simp
    have hc : Consumed rest (s.takeSnapshot c) i ↔ Consumed rest s i := by
      unfold Consumed; simp only [State.entry_of_channels hch]
    have := ih (s.takeSnapshot c)
    rw [hc, hst, State.takeSnapshot_slotAt] at this
    rw [List.foldl_cons]
    have hcons : Consumed (c :: rest) s i ↔ (s.entry c).slotIndex = some i ∨ Consumed rest s i := by
      unfold Consumed; simp
    rw [hcons]
    by_cases h : (s.entry c).slotIndex = some i
    · rw [if_pos h] at this
      refine ⟨fun _ => ?_, fun hn => absurd (.inl h) hn⟩
      by_cases hr : Consumed rest s i
      · rw [this.1 hr]; cases s.slotAt i <;> simp [SnapshotOf_idem]
      · exact this.2 hr
    · rw [if_neg h] at this
      exact ⟨fun hh => this.1 (hh.resolve_left h), fun hn => this.2 (fun hr => hn (.inr hr))⟩

/-- Consuming the markers at the FIFO's head gives their slots their snapshots, and no other slot anything (R45). -/
theorem State.consumeMarkers_slotAt (s : State) (i : Nat) :
    (Consumed (headMarkers s.store.fifo) s i → s.consumeMarkers.slotAt i = (s.slotAt i).map (SnapshotOf s)) ∧
      (¬ Consumed (headMarkers s.store.fifo) s i → s.consumeMarkers.slotAt i = s.slotAt i) :=
  State.takeSnapshots_slotAt (headMarkers s.store.fifo) (s.setFifo (withoutHeadMarkers s.store.fifo)) i

/-- The head DATA entry leaves: its buffer is free, and the markers behind it are consumed, each with its slot's snapshot
(R109, R110, R45). -/
theorem State.dropHeadData_spec {s : State} {c : Channel} {q : Seq} {payload : List Octet} {attempts : Nat}
    {wire purged : Bool} {rest : List FifoEntry} (h : s.store.fifo = .data c q payload attempts wire purged :: rest) :
    s.dropHeadData.store = { s.store with fifo := withoutHeadMarkers rest, free := s.store.free + 1 } ∧
      (∀ i, Consumed (headMarkers rest) s i → s.dropHeadData.slotAt i = (s.slotAt i).map (SnapshotOf s)) ∧
      (∀ i, ¬ Consumed (headMarkers rest) s i → s.dropHeadData.slotAt i = s.slotAt i) ∧
      ChangesOnly [.store, .slots] s s.dropHeadData := by
  have hd : s.dropHeadData = ((s.setFifo rest).freeBuffers 1).consumeMarkers := by
    unfold State.dropHeadData; rw [h]
  rw [hd]
  have hc := State.consumeMarkers_slotAt ((s.setFifo rest).freeBuffers 1)
  refine ⟨?_, fun i => (hc i).1, fun i => (hc i).2, fun p hp => ?_, by simp⟩
  · rw [State.consumeMarkers_store]; rfl
  · cases p <;> first | (exact absurd (by decide) hp) | simp [Part.same]

/-- A marker at the tail of a FIFO whose head is no marker is at its head only when the FIFO was empty. -/
theorem headMarkers_append_marker {l : List FifoEntry} (h : headMarkers l = []) (c : Channel) :
    headMarkers (l ++ [.marker c]) = if l = [] then [c] else [] := by
  match l with
  | [] => rfl
  | .data .. :: rest => rfl
  | .marker d :: rest => simp [headMarkers] at h

/-- The release of a slot (R43): the slot RELEASING with its tag, the view, and the marker at the FIFO's tail; on an empty
FIFO the marker is consumed at once, with the drain snapshot (R45). -/
theorem State.startRelease_spec (s : State) (i : Nat) (sl : Slot) (tag : Option Octet)
    (h : headMarkers s.store.fifo = []) :
    (s.startRelease i sl tag).slots =
        FMap.insert s.slots i
          (if s.store.fifo = [] then s.snapshot { sl with phase := .releasing, tag := tag }
           else { sl with phase := .releasing, tag := tag }) ∧
      (s.startRelease i sl tag).channels =
        (s.setEntry sl.channel ((s.entry sl.channel).toLocal .releasing s.station.number i)).channels ∧
      (s.startRelease i sl tag).store =
        { s.store with fifo := if s.store.fifo = [] then [] else s.store.fifo ++ [.marker sl.channel] } := by
  unfold State.startRelease
  dsimp only
  refine ⟨?_, ?_, ?_⟩
  · by_cases hf : s.store.fifo = []
    · unfold State.consumeMarkers
      simp only [State.setFifo_store, State.setEntry_store, State.putSlot_store, hf, List.nil_append, headMarkers,
        List.foldl_cons, List.foldl_nil, ↓reduceIte]
      unfold State.takeSnapshot
      rw [(State.slotOf_eq_some (i := i) (sl := { sl with phase := .releasing, tag := tag })).mpr
        ⟨by rw [State.entry_of_channels (State.setFifo_channels ..), State.entry_of_channels (State.setFifo_channels ..),
              State.entry_setEntry_self]; rfl,
         by unfold State.slotAt; simp⟩]
      simp only [State.putSlot_slots, State.setFifo_slots, State.setEntry_slots, FMap.insert_insert]
      rfl
    · rw [State.consumeMarkers_none
        (by simp [headMarkers_append_marker h, hf])]
      simp [hf]
  · simp
  · rw [State.consumeMarkers_store]
    simp only [State.setFifo_store, State.setEntry_store, State.putSlot_store]
    by_cases hf : s.store.fifo = []
    · simp [hf, withoutHeadMarkers]
    · congr 1
      rw [if_neg hf]
      match hl : s.store.fifo with
      | [] => exact absurd hl hf
      | .data .. :: rest => rfl
      | .marker d :: rest => rw [hl] at h; simp [headMarkers] at h

/-! ### Descriptors that leave -/

/-- A descriptor has left a receive queue: a buffer is free again and its channel's count is one less (R104). -/
theorem State.dequeued_spec (s : State) (d : Descriptor) :
    (s.dequeued d).store = { s.store with free := s.store.free + 1 } ∧
      (s.dequeued d).entry d.channel = { s.entry d.channel with queued := (s.entry d.channel).queued - 1 } ∧
      OtherEntries d.channel s (s.dequeued d) := by
  have hch : (s.dequeued d).channels =
      (s.setEntry d.channel { s.entry d.channel with queued := (s.entry d.channel).queued - 1 }).channels := by
    unfold State.dequeued
    dsimp only
    split
    · split <;> rfl
    · rfl
  refine ⟨?_, ?_, ?_⟩
  · unfold State.dequeued
    dsimp only
    split
    · split <;> rfl
    · rfl
  · rw [State.entry_of_channels hch, State.entry_setEntry_self]
  · intro c hc; rw [State.entry_of_channels hch, State.entry_setEntry_other _ _ hc]

/-- The context of a DRAINING channel whose last descriptor has left owes DRAINED (R8, R59); every other is as it was. -/
theorem State.dequeued_contextAt (s : State) (d : Descriptor) (i : Nat) :
    (s.dequeued d).contextAt i =
      if (s.entry d.channel).contextIndex = some i ∧ (s.entry d.channel).queued - 1 = 0 ∧
          (s.entry d.channel).subscription = .draining then (s.contextAt i).map Context.oweDrained
      else s.contextAt i := by
  unfold State.dequeued
  dsimp only
  split
  · rename_i h
    have he : ((s.freeBuffers 1).setEntry d.channel
        { s.entry d.channel with queued := (s.entry d.channel).queued - 1 }).contextOf d.channel =
        s.contextOf d.channel := by
      unfold State.contextOf
      rw [State.entry_setEntry_self]
      rfl
    rw [he]
    by_cases hi : (s.entry d.channel).contextIndex = some i
    · rw [if_pos ⟨hi, h⟩]
      cases hk : s.contextAt i with
      | none =>
        have : s.contextOf d.channel = none := by
          unfold State.contextOf; rw [hi]; unfold State.contextAt at hk; simp [hk]
        rw [this]
        exact hk
      | some k =>
        rw [State.contextOf_eq_some.mpr ⟨hi, hk⟩]
        dsimp only
        rw [State.contextAt_of_insert (by exact State.putContext_contexts ..), if_pos rfl]
        rfl
    · rw [if_neg (by simp [hi])]
      split
      · rename_i j k hj
        have hj := (State.contextOf_eq_some.mp hj).1
        rw [State.contextAt_of_insert (by exact State.putContext_contexts ..), if_neg]
        · rfl
        · intro hij; exact hi (hij ▸ hj)
      · rfl
  · rename_i h
    rw [if_neg (by tauto)]
    rfl

/-! ### The Station Controller but its BEACON -/

/-- The Station Controller without what it owes: the part the withdrawal's test leaves as it is. -/
def StationController.settled (c : StationController) : StationController := { c with beacon := none }

@[simp] theorem State.testWithdrawal_settled (s : State) : s.testWithdrawal.station.settled = s.station.settled := by
  unfold State.testWithdrawal; split <;> rfl

@[simp] theorem State.complete_settled (s : State) (tag : Octet) (e : Ending) :
    (s.complete tag e).station.settled = s.station.settled := by
  unfold State.complete; split <;> simp

@[simp] theorem State.completeHeld_settled (s : State) (tag : Option Octet) (e : Ending) :
    (s.completeHeld tag e).station.settled = s.station.settled := by
  unfold State.completeHeld; split <;> simp

@[simp] theorem State.freeSlot_settled (s : State) (i : Nat) (c : Channel) (x : Option Station) :
    (s.freeSlot i c x).station.settled = s.station.settled := by
  unfold State.freeSlot; simp

@[simp] theorem State.freeContext_settled (s : State) (i : Nat) (c : Channel) :
    (s.freeContext i c).station.settled = s.station.settled := by
  unfold State.freeContext; simp

@[simp] theorem State.orphan_settled (s : State) (i : Nat) (k : Context) (r : OrphanReason) (x : Station) :
    (s.orphan i k r x).station.settled = s.station.settled := by
  unfold State.orphan; simp

@[simp] theorem State.departContext_settled (y : Station) (s : State) (row : Nat × Context) :
    (s.departContext y row).station.settled = s.station.settled := by
  unfold State.departContext
  (repeat' split) <;> simp

@[simp] theorem State.depart_settled (s : State) (y : Station) (r : LostReason) (e : Octet) :
    (s.depart y r e).station.settled = s.station.settled := by
  unfold State.depart
  dsimp only
  rw [foldl_same (fun t => t.station.settled) (State.departContext y) (by simp)]
  simp

/-- What a settled Station Controller says, the Station Controller says. -/
theorem StationController.of_settled {a b : StationController} (h : a.settled = b.settled) :
    a.mode = b.mode ∧ a.number = b.number ∧ a.epoch = b.epoch ∧ a.startup = b.startup ∧ a.presence = b.presence ∧
      a.listen = b.listen ∧ a.inReset = b.inReset := by
  unfold StationController.settled at h
  simpa using h

end Sys2Proof.Machine
end

