-- ==== Sys2Proof/Laws/Station.lean ====
section
/-! SUPPORT. The operations that act on the whole station, each with one law: the departure of a peer, entering DETACHED,
MUTED entry; and the sorting they share. -/

namespace Sys2Proof.Machine

/-! ### Sorting -/

theorem insertByKey_perm {α : Type} (key : α → Nat) (x : α) (l : List α) : (insertByKey key x l).Perm (x :: l) := by
  induction l with
  | nil => exact List.Perm.refl _
  | cons y rest ih =>
    unfold insertByKey
    split
    · exact List.Perm.refl _
    · exact (List.Perm.cons y ih).trans (List.Perm.swap x y rest)

/-- Sorting loses nothing. -/
theorem sortByKey_perm {α : Type} (key : α → Nat) (l : List α) : (sortByKey key l).Perm l := by
  induction l with
  | nil => exact List.Perm.refl _
  | cons x rest ih =>
    show (insertByKey key x (sortByKey key rest)).Perm (x :: rest)
    exact (insertByKey_perm key x _).trans (List.Perm.cons x ih)

theorem insertByKey_sorted {α : Type} (key : α → Nat) (x : α) (l : List α)
    (h : l.Pairwise (fun a b => key a ≤ key b)) : (insertByKey key x l).Pairwise (fun a b => key a ≤ key b) := by
  induction l with
  | nil => simp [insertByKey]
  | cons y rest ih =>
    have hy := List.pairwise_cons.mp h
    unfold insertByKey
    split
    · rename_i hxy
      refine List.pairwise_cons.mpr ⟨?_, h⟩
      intro z hz
      rcases List.mem_cons.mp hz with rfl | hz
      · exact hxy
      · exact le_trans hxy (hy.1 z hz)
    · rename_i hxy
      refine List.pairwise_cons.mpr ⟨?_, ih hy.2⟩
      intro z hz
      rcases List.mem_cons.mp ((insertByKey_perm key x rest).mem_iff.mp hz) with rfl | hz
      · omega
      · exact hy.1 z hz

/-- A sorted list is in ascending order of the key. -/
theorem sortByKey_sorted {α : Type} (key : α → Nat) (l : List α) :
    (sortByKey key l).Pairwise (fun a b => key a ≤ key b) := by
  induction l with
  | nil => exact List.Pairwise.nil
  | cons x rest ih => exact insertByKey_sorted key x _ ih

/-! ### Departure -/

/-- What a departure makes of a slot (R55). -/
theorem Slot.forget_eq (x : Station) (sl : Slot) : sl.forget x = SlotLeftBy x sl := by
  unfold Slot.forget Slot.confirm SlotLeftBy
  dsimp only
  cases hasStation sl.awaited x
  · simp
  · simp only [Bool.true_eq_false, ↓reduceIte]
    split
    · rename_i h
      simp only [Slot.closeDrain, SlotOwed.fresh, h]
    · rfl

/-- What a departure makes of a context that it does not free. -/
theorem State.orphan_spec (s : State) (i : Nat) (k : Context) (reason : OrphanReason) (x : Station) :
    (s.orphan i k reason x).contexts = FMap.erase s.contexts i ∧
      (s.orphan i k reason x).channels = (s.setEntry k.channel (s.entry k.channel).unsubscribed).channels ∧
      Ended k.tag { result := .ownerLost, station := some x } (s.notify (.channelOrphaned k.channel reason x))
        (s.orphan i k reason x) ∧
      WithdrawalTested s (s.orphan i k reason x) := by
  have hp : (s.freeContext i k.channel).port = s.port := by simp
  have hev : (s.freeContext i k.channel).events = s.events := by simp
  refine ⟨?_, ?_, ?_, ?_⟩
  · simp [State.orphan, State.freeContext]
  · simp [State.orphan, State.freeContext]
  · refine (State.completeHeld_ended _ k.tag _).of_same ?_ ?_
    · simp
    · rw [State.notify_events, State.notify_events, hev]
      unfold State.eventSum
      rw [hev, hp]
  · refine WithdrawalTested.completeHeld ?_ _ _
    exact (State.freeContext_spec s i k.channel).2.2.2.2.congr (by simp) (by simp) (by simp) (by simp)

/-- What a departure makes of one context. -/
def Context.afterDeparture (y : Station) (k : Context) : Option Context :=
  if k.state = .joining then
    some { k with owed := k.owed.map fun o =>
      if o.destination = y ∧ o.onWire = false then { o with destination := 0 } else o }
  else if k.owner = some y then none
  else some k

theorem State.departContext_contexts (y : Station) (s : State) (i : Nat) (k : Context) (h : s.contextAt i = some k)
    (j : Nat) :
    (s.departContext y (i, k)).contextAt j = if j = i then k.afterDeparture y else s.contextAt j := by
  unfold Context.afterDeparture State.departContext
  by_cases hj : k.state = .joining
  · simp only [hj, ↓reduceIte]
    cases ho : k.owed with
    | none =>
      by_cases hji : j = i
      · subst hji
        cases k
        simp_all
      · simp [hji]
    | some o =>
      dsimp only
      by_cases hc : o.destination = y ∧ o.onWire = false
      · rw [if_pos hc, State.contextAt_of_insert rfl]
        simp [hc]
      · rw [if_neg hc]
        by_cases hji : j = i
        · subst hji
          cases k
          simp_all
        · simp [hji]
  · simp only [hj, ↓reduceIte]
    by_cases hk : k.owner = some y
    · simp only [hk, ↓reduceIte]
      rw [State.contextAt_of_erase (State.orphan_spec s i k .ownerDeparted y).1]
    · simp only [hk, ↓reduceIte]
      by_cases hji : j = i
      · subst hji; simp [h]
      · simp [hji]

/-- The contexts after a departure has gone through a list of them. -/
theorem State.departContexts (y : Station) (l : List (Nat × Context)) (s : State) (hl : (l.map Prod.fst).Nodup)
    (h : ∀ row ∈ l, s.contextAt row.1 = some row.2) :
    (∀ j, j ∉ l.map Prod.fst → (l.foldl (State.departContext y) s).contextAt j = s.contextAt j) ∧
      (∀ row ∈ l, (l.foldl (State.departContext y) s).contextAt row.1 = row.2.afterDeparture y) := by
  induction l generalizing s with
  | nil => simp
  | cons row rest ih =>
    obtain ⟨i, k⟩ := row
    have hd := List.nodup_cons.mp hl
    have hk := h (i, k) (List.mem_cons_self ..)
    have hs := State.departContext_contexts y s i k hk
    have := ih (s.departContext y (i, k)) hd.2 (by
      intro row hrow
      rw [hs, if_neg]
      · exact h row (List.mem_cons_of_mem _ hrow)
      · intro he
        exact hd.1 (List.mem_map.mpr ⟨row, hrow, he⟩))
    rw [List.foldl_cons]
    refine ⟨?_, ?_⟩
    · intro j hj
      rw [List.map_cons, List.mem_cons, not_or] at hj
      rw [this.1 j hj.2, hs, if_neg hj.1]
    · intro row hrow
      rcases List.mem_cons.mp hrow with rfl | hrow
      · rw [this.1 i hd.1, hs, if_pos rfl]
      · exact this.2 row hrow

theorem FMap.keys_nodup {α : Type} {bound : Nat} {m : FMap α} (h : FMap.wf bound m = true) :
    (List.map Prod.fst m).Nodup := by
  induction m with
  | nil => simp
  | cons row rest ih =>
    have hc := (FMap.wf_cons bound row.1 row.2 rest).mp h
    rw [List.map_cons, List.nodup_cons]
    refine ⟨?_, ih hc.2.2⟩
    intro hm
    obtain ⟨r, hr, he⟩ := List.mem_map.mp hm
    have := hc.2.1 r hr
    omega

/-- A step of a departure keeps what an entry says but its subscription. -/
theorem State.departContext_entry (y : Station) (s : State) (row : Nat × Context) (c : Channel) :
    ((s.departContext y row).entry c).view = (s.entry c).view ∧
      ((s.departContext y row).entry c).owner = (s.entry c).owner ∧
      ((s.departContext y row).entry c).slotIndex = (s.entry c).slotIndex ∧
      ((s.departContext y row).entry c).discard = (s.entry c).discard ∧
      ((s.departContext y row).entry c).trap = (s.entry c).trap ∧
      ((s.departContext y row).entry c).group = (s.entry c).group ∧
      ((s.departContext y row).entry c).queued = (s.entry c).queued := by
  unfold State.departContext
  split
  · split
    · split
      · rw [State.entry_of_channels (State.putContext_channels ..)]; simp
      · simp
    · simp
  · split
    · rw [State.entry_of_channels (State.orphan_spec s row.1 row.2 .ownerDeparted y).2.1, State.entry_setEntry]
      split
      · subst_vars; simp [ChannelEntry.unsubscribed]
      · simp
    · simp

/-- A step of a departure takes the subscription of an orphaned context's channel, and no other. -/
theorem State.departContext_subscription (y : Station) (s : State) (row : Nat × Context) (c : Channel) :
    (OrphanOf y row.2 ∧ row.2.channel = c →
      ((s.departContext y row).entry c).subscription = .none ∧ ((s.departContext y row).entry c).contextIndex = none) ∧
    (¬ (OrphanOf y row.2 ∧ row.2.channel = c) →
      ((s.departContext y row).entry c).subscription = (s.entry c).subscription ∧
        ((s.departContext y row).entry c).contextIndex = (s.entry c).contextIndex) := by
  unfold OrphanOf State.departContext
  split
  · rename_i hj
    refine ⟨fun h => absurd hj h.1.1, fun _ => ?_⟩
    split
    · split
      · rw [State.entry_of_channels (State.putContext_channels ..)]; exact ⟨rfl, rfl⟩
      · exact ⟨rfl, rfl⟩
    · exact ⟨rfl, rfl⟩
  · rename_i hj
    split
    · rename_i hk
      rw [State.entry_of_channels (State.orphan_spec s row.1 row.2 .ownerDeparted y).2.1, State.entry_setEntry]
      split
      · rename_i hc
        exact ⟨fun _ => ⟨rfl, rfl⟩, fun hn => absurd ⟨⟨hj, hk⟩, hc.symm⟩ hn⟩
      · rename_i hc
        exact ⟨fun hh => absurd hh.2.symm hc, fun _ => ⟨rfl, rfl⟩⟩
    · rename_i hk
      exact ⟨fun hh => absurd hh.1.2 hk, fun _ => ⟨rfl, rfl⟩⟩

/-- A departure that has gone through a list of contexts has taken the subscriptions of the orphaned ones. -/
theorem State.departContexts_subscription (y : Station) (l : List (Nat × Context)) (s : State) (c : Channel) :
    ((∃ row ∈ l, OrphanOf y row.2 ∧ row.2.channel = c) →
      ((l.foldl (State.departContext y) s).entry c).subscription = .none ∧
        ((l.foldl (State.departContext y) s).entry c).contextIndex = none) ∧
    ((¬ ∃ row ∈ l, OrphanOf y row.2 ∧ row.2.channel = c) →
      ((l.foldl (State.departContext y) s).entry c).subscription = (s.entry c).subscription ∧
        ((l.foldl (State.departContext y) s).entry c).contextIndex = (s.entry c).contextIndex) := by
  induction l generalizing s with
  | nil => exact ⟨fun ⟨_, h, _⟩ => (List.not_mem_nil h).elim, fun _ => ⟨rfl, rfl⟩⟩
  | cons row rest ih =>
    have h0 := State.departContext_subscription y s row c
    have h1 := ih (s.departContext y row)
    rw [List.foldl_cons]
    simp only [List.mem_cons, exists_eq_or_imp]
    by_cases hr : ∃ row ∈ rest, OrphanOf y row.2 ∧ row.2.channel = c
    · exact ⟨fun _ => h1.1 hr, fun hn => absurd (.inr hr) hn⟩
    · have h2 := h1.2 hr
      rw [h2.1, h2.2]
      exact ⟨fun hh => h0.1 (hh.resolve_right hr), fun hn => h0.2 (fun hh => hn (.inl hh))⟩

/-- Two states with the same Event Queue and the same local port. -/
def SameRecords (s t : State) : Prop := t.events = s.events ∧ t.port = s.port

theorem OrphanWrites_congr {x : Station} {k : Context} {s t : State} (h : SameRecords s t) :
    SameRecords (OrphanWrites x s k) (OrphanWrites x t k) := by
  unfold SameRecords at h ⊢
  unfold OrphanWrites Notified
  dsimp only
  have hr : ∀ e e' : EventQueue, Option.bind k.tag (State.requestWith { t with events := e }) =
      Option.bind k.tag (State.requestWith { s with events := e' }) := by
    intro e e'; congr 1; funext w; unfold State.requestWith; dsimp only; rw [h.2]
  rw [hr _ (if s.events.records.length + s.port.requests.length < 64 then
        ⟨s.events.records ++ [.notification (.channelOrphaned k.channel .ownerDeparted x) s.events.lost], 0⟩
      else ⟨s.events.records, if s.events.lost = 255 then 255 else s.events.lost + 1⟩)]
  split
  · simp only [h.1, h.2, and_self]
  · simp only [h.1, h.2, and_self]

/-- An orphaned context writes what R81 says. -/
theorem State.orphan_records (s : State) (i : Nat) (k : Context) (x : Station) :
    SameRecords (OrphanWrites x s k) (s.orphan i k .ownerDeparted x) := by
  have h := (State.orphan_spec s i k .ownerDeparted x).2.2.1
  rw [State.notify_eq] at h
  unfold Ended at h
  unfold SameRecords OrphanWrites
  dsimp only
  split at h
  · exact ⟨h.2, h.1⟩
  · exact ⟨h.2, h.1⟩

/-- What the orphans among a list of contexts write, one after another (R81). -/
theorem State.departContexts_records (y : Station) (l : List (Nat × Context)) (s u : State) (h : SameRecords u s) :
    SameRecords ((l.filter fun row => row.2.state ≠ .joining ∧ row.2.owner = some y).foldl
      (fun u row => OrphanWrites y u row.2) u) (l.foldl (State.departContext y) s) := by
  induction l generalizing s u with
  | nil => exact h
  | cons row rest ih =>
    rw [List.foldl_cons, List.filter_cons]
    by_cases ho : row.2.state ≠ .joining ∧ row.2.owner = some y
    · rw [if_pos (decide_eq_true ho), List.foldl_cons]
      refine ih _ _ ?_
      have hd : s.departContext y row = s.orphan row.1 row.2 .ownerDeparted y := by
        unfold State.departContext; rw [if_neg ho.1, if_pos ho.2]
      rw [hd]
      have h1 := State.orphan_records s row.1 row.2 y
      have h2 := OrphanWrites_congr (x := y) (k := row.2) h
      exact ⟨h1.1.trans h2.1, h1.2.trans h2.2⟩
    · rw [if_neg (by simpa using ho)]
      refine ih _ _ ?_
      have hd : SameRecords s (s.departContext y row) := by
        unfold State.departContext SameRecords
        split
        · split
          · split <;> exact ⟨rfl, rfl⟩
          · exact ⟨rfl, rfl⟩
        · split
          · rename_i h1 h2; exact absurd ⟨h1, h2⟩ ho
          · exact ⟨rfl, rfl⟩
      exact ⟨hd.1.trans h.1, hd.2.trans h.2⟩

/-- Where no context is orphaned, a departure writes no record and makes no test. -/
theorem State.departContexts_quiet (y : Station) (l : List (Nat × Context)) (s : State)
    (h : ∀ row ∈ l, ¬ OrphanOf y row.2) :
    (l.foldl (State.departContext y) s).events = s.events ∧ (l.foldl (State.departContext y) s).port = s.port ∧
      (l.foldl (State.departContext y) s).station = s.station := by
  induction l generalizing s with
  | nil => exact ⟨rfl, rfl, rfl⟩
  | cons row rest ih =>
    have hr := h row (List.mem_cons_self ..)
    have hs : (s.departContext y row).events = s.events ∧ (s.departContext y row).port = s.port ∧
        (s.departContext y row).station = s.station := by
      unfold OrphanOf at hr
      unfold State.departContext
      split
      · split
        · split <;> exact ⟨rfl, rfl, rfl⟩
        · exact ⟨rfl, rfl, rfl⟩
      · split
        · rename_i h1 h2; exact absurd ⟨h1, h2⟩ hr
        · exact ⟨rfl, rfl, rfl⟩
    have := ih (s.departContext y row) (fun r hr => h r (List.mem_cons_of_mem _ hr))
    rw [List.foldl_cons]
    exact ⟨this.1.trans hs.1, this.2.1.trans hs.2.1, this.2.2.trans hs.2.2⟩

theorem State.contexts_ne_nil {s : State} {i : Nat} {k : Context} (h : s.contextAt i = some k) :
    s.nothingRemains = false := by
  unfold State.contextAt at h
  unfold State.nothingRemains
  cases hc : s.contexts with
  | nil => rw [hc] at h; cases h
  | cons row rest => simp

/-- Where a context is orphaned, the withdrawal's test is made. -/
theorem State.departContexts_tested (y : Station) (l : List (Nat × Context)) (s : State) (hl : (l.map Prod.fst).Nodup)
    (h : ∀ row ∈ l, s.contextAt row.1 = some row.2) (ho : ∃ row ∈ l, OrphanOf y row.2) :
    WithdrawalTested s (l.foldl (State.departContext y) s) := by
  induction l generalizing s with
  | nil => obtain ⟨row, hr, _⟩ := ho; cases hr
  | cons row rest ih =>
    obtain ⟨i, k⟩ := row
    have hd := List.nodup_cons.mp hl
    have hs := State.departContext_contexts y s i k (h (i, k) (List.mem_cons_self ..))
    have hrest : ∀ row ∈ rest, (s.departContext y (i, k)).contextAt row.1 = some row.2 := by
      intro row hrow
      rw [hs, if_neg]
      · exact h row (List.mem_cons_of_mem _ hrow)
      · intro he
        exact hd.1 (List.mem_map.mpr ⟨row, hrow, he⟩)
    rw [List.foldl_cons]
    by_cases hk : OrphanOf y k
    · have hu : WithdrawalTested s (s.departContext y (i, k)) := by
        unfold State.departContext
        rw [if_neg hk.1, if_pos hk.2]
        exact (State.orphan_spec s i k .ownerDeparted y).2.2.2
      match rest, hrest, ih, hd with
      | [], _, _, _ => exact hu
      | r :: rest', hrest, ih, hd =>
        have hf : (s.departContext y (i, k)).nothingRemains = false :=
          State.contexts_ne_nil (hrest r (List.mem_cons_self ..))
        by_cases hr : ∃ row ∈ r :: rest', OrphanOf y row.2
        · exact hu.trans (ih _ hd.2 hrest hr) (by simp [hf])
        · simp only [not_exists, not_and] at hr
          have hq := State.departContexts_quiet y (r :: rest') (s.departContext y (i, k)) hr
          have hc := (State.departContexts y (r :: rest') (s.departContext y (i, k)) hd.2 hrest).2 r
            (List.mem_cons_self ..)
          have hg : ((r :: rest').foldl (State.departContext y) (s.departContext y (i, k))).nothingRemains = false := by
            have hr' := hr r (List.mem_cons_self ..)
            unfold OrphanOf at hr'
            unfold Context.afterDeparture at hc
            split at hc
            · exact State.contexts_ne_nil hc
            · split at hc
              · rename_i h1 h2; exact absurd ⟨h1, h2⟩ hr'
              · exact State.contexts_ne_nil hc
          unfold WithdrawalTested at hu ⊢
          rw [hq.2.2, hg]
          rw [hf] at hu
          exact hu
    · have hst := (State.departContexts_quiet y [(i, k)] s (by simpa using hk)).2.2
      refine (ih _ hd.2 hrest ?_).of_station hst.symm
      obtain ⟨row, hr, hro⟩ := ho
      rcases List.mem_cons.mp hr with rfl | hr
      · exact absurd hro hk
      · exact ⟨row, hr, hro⟩

theorem ChannelEntry.departed_initial (y : Station) :
    ChannelEntry.initial.departed y = ChannelEntry.initial := by
  simp [ChannelEntry.departed, ChannelEntry.initial]

/-- The departure of a peer, as R123 gives it. -/
theorem State.depart_spec (s : State) (x : Station) (reason : LostReason) (epoch : Octet) (ht : TableLaw s) :
    Departed x reason epoch s (s.depart x reason epoch) := by
  obtain ⟨s₂, hs₂⟩ : ∃ s₂ : State, s₂ = { (({ s with peers := FMap.erase s.peers x.toNat } : State).notify
      (.peerLost x reason epoch)) with
        channels := mapEntries (ChannelEntry.departed x) s.channels
        slots := FMap.mapValues (Slot.forget x) s.slots } := ⟨_, rfl⟩
  have hd : s.depart x reason epoch = s₂.subscribedChannels.foldl (State.departContext x) s₂ := by
    subst hs₂; simp [State.depart]
  have hctx : s₂.contexts = s.contexts := by subst hs₂; simp
  have hev : s₂.events = (s.notify (.peerLost x reason epoch)).events := by
    subst hs₂
    show (State.notify _ _).events = _
    rw [State.notify_events, State.notify_events]; rfl
  have hsub : s₂.subscribedChannels.Perm s.contexts := by
    unfold State.subscribedChannels; rw [hctx]; exact sortByKey_perm ..
  have hnd : (s₂.subscribedChannels.map Prod.fst).Nodup :=
    (hsub.map Prod.fst).nodup_iff.mpr (FMap.keys_nodup ht.2.1)
  have hrow : ∀ row ∈ s₂.subscribedChannels, s₂.contextAt row.1 = some row.2 := by
    intro row hr
    unfold State.contextAt
    rw [hctx]
    exact FMap.find?_of_mem ht.2.1 (hsub.mem_iff.mp hr)
  have hc := State.departContexts x s₂.subscribedChannels s₂ hnd hrow
  have hmem : ∀ i k, s.contextAt i = some k → (i, k) ∈ s₂.subscribedChannels := by
    intro i k h
    exact hsub.mem_iff.mpr (FMap.mem_of_find? h)
  have hsome : ∀ i k, s.contextAt i = some k → (s.depart x reason epoch).contextAt i = k.afterDeparture x := by
    intro i k h
    rw [hd]; exact hc.2 (i, k) (hmem i k h)
  rw [hd] at hsome ⊢
  have horph : ∀ c, (∃ row ∈ s₂.subscribedChannels, OrphanOf x row.2 ∧ row.2.channel = c) ↔
      ∃ i k, s.contextAt i = some k ∧ OrphanOf x k ∧ k.channel = c := by
    intro c
    constructor
    · rintro ⟨row, hr, ho⟩
      have h2 := hrow row hr
      unfold State.contextAt at h2
      rw [hctx] at h2
      exact ⟨row.1, row.2, h2, ho⟩
    · rintro ⟨i, k, h, ho⟩
      exact ⟨(i, k), hmem i k h, ho⟩
  refine ⟨?_, ?_, ?_, ?_, ?_, ?_, ?_, ?_, ?_, ?_⟩
  · rw [State.peerAt_of_erase (x := x) (s := s), if_pos rfl]
    rw [foldl_same (fun t => t.peers) (State.departContext x) (by simp)]
    subst hs₂; simp
  · intro y hy
    rw [State.peerAt_of_erase (x := x) (s := s), if_neg hy]
    rw [foldl_same (fun t => t.peers) (State.departContext x) (by simp)]
    subst hs₂; simp
  · intro i
    unfold State.slotAt
    rw [foldl_same (fun t => t.slots) (State.departContext x) (by simp)]
    subst hs₂
    simp only [FMap.find?_mapValues]
    congr 1
    funext sl
    exact Slot.forget_eq x sl
  · intro i h
    rw [hc.1]
    · unfold State.contextAt; rw [hctx]; exact h
    · intro hm
      obtain ⟨row, hr, rfl⟩ := List.mem_map.mp hm
      have h2 := hrow row hr
      unfold State.contextAt at h h2
      rw [hctx] at h2
      rw [h2] at h
      cases h
  · intro i k h
    have := hsome i k h
    refine ⟨?_, ?_, ?_⟩
    · intro ho; rw [this]; unfold Context.afterDeparture; rw [if_neg ho.1, if_pos ho.2]
    · intro h1 h2; rw [this]; unfold Context.afterDeparture; rw [if_neg h1, if_neg h2]
    · intro h1; rw [this]; unfold Context.afterDeparture; rw [if_pos h1]
  · intro c
    have he : s₂.entry c = (s.entry c).departed x :=
      State.entry_of_mapEntries (ChannelEntry.departed_initial x) (by subst hs₂; rfl) c
    have h1 := foldl_same (fun t => (t.entry c).view) (State.departContext x)
      (fun s r => (State.departContext_entry x s r c).1) s₂.subscribedChannels s₂
    have h2 := foldl_same (fun t => (t.entry c).owner) (State.departContext x)
      (fun s r => (State.departContext_entry x s r c).2.1) s₂.subscribedChannels s₂
    have h2' := foldl_same (fun t => (t.entry c).slotIndex) (State.departContext x)
      (fun s r => (State.departContext_entry x s r c).2.2.1) s₂.subscribedChannels s₂
    have h3 := foldl_same (fun t => (t.entry c).discard) (State.departContext x)
      (fun s r => (State.departContext_entry x s r c).2.2.2.1) s₂.subscribedChannels s₂
    have h4 := foldl_same (fun t => (t.entry c).trap) (State.departContext x)
      (fun s r => (State.departContext_entry x s r c).2.2.2.2.1) s₂.subscribedChannels s₂
    have h5 := foldl_same (fun t => (t.entry c).group) (State.departContext x)
      (fun s r => (State.departContext_entry x s r c).2.2.2.2.2.1) s₂.subscribedChannels s₂
    have h6 := foldl_same (fun t => (t.entry c).queued) (State.departContext x)
      (fun s r => (State.departContext_entry x s r c).2.2.2.2.2.2) s₂.subscribedChannels s₂
    have h7 := State.departContexts_subscription x s₂.subscribedChannels s₂ c
    rw [horph c] at h7
    rw [he] at h1 h2 h2' h3 h4 h5 h6 h7
    have hk : ((s.entry c).departed x).subscription = (s.entry c).subscription ∧
        ((s.entry c).departed x).contextIndex = (s.entry c).contextIndex := by
      unfold ChannelEntry.departed; split <;> exact ⟨rfl, rfl⟩
    rw [hk.1, hk.2] at h7
    refine ⟨?_, h7.1, h7.2, ?_⟩
    · rw [h1, h2, h2']
      unfold ChannelEntry.departed
      refine ⟨fun h => ?_, fun h => ?_⟩
      · rw [if_pos h]; exact ⟨rfl, rfl, rfl⟩
      · rw [if_neg h]; exact ⟨rfl, rfl, rfl⟩
    · rw [h3, h4, h5, h6]
      unfold ChannelEntry.departed
      split <;> exact ⟨rfl, rfl, rfl, rfl⟩
  · have hrec := State.departContexts_records x s₂.subscribedChannels s₂ (Notified (.peerLost x reason epoch) s)
      ⟨by rw [hev, State.notify_eq], by subst hs₂; simp [Notified]⟩
    refine ⟨_, ?_, ?_, ?_, hrec.1, hrec.2⟩
    · exact (List.filter_sublist.map Prod.fst).nodup hnd
    · intro i k
      rw [List.mem_filter]
      unfold OrphanOf
      simp only [decide_eq_true_eq]
      constructor
      · rintro ⟨hm, ho⟩
        have h2 := hrow (i, k) hm
        unfold State.contextAt at h2
        rw [hctx] at h2
        exact ⟨h2, ho⟩
      · rintro ⟨h, ho⟩
        exact ⟨hmem i k h, ho⟩
    · exact (sortByKey_sorted ..).filter _
  · intro h
    have := State.departContexts_quiet x s₂.subscribedChannels s₂ (by
      intro row hr
      have h2 := hrow row hr
      unfold State.contextAt at h2
      rw [hctx] at h2
      exact h row.1 row.2 h2)
    rw [this.2.2]
    subst hs₂
    simp
  · rintro ⟨i, k, h, ho⟩
    refine (State.departContexts_tested x s₂.subscribedChannels s₂ hnd hrow ⟨(i, k), hmem i k h, ho⟩).of_station ?_
    subst hs₂; simp
  · have hs := State.depart_same s x reason epoch
    rw [← hd]
    clear hd hsome hmem hc hrow hnd hsub hev hctx hs₂
    exact ⟨fun p hp => by cases p <;> simp_all [Part.same], hs.2.2.2⟩

/-! ### DETACHED and MUTED -/

theorem ChannelEntry.forgetRemote_initial : ChannelEntry.initial.forgetRemote = ChannelEntry.initial := by
  simp [ChannelEntry.forgetRemote, ChannelEntry.initial]

/-- What entering DETACHED makes of an entry (R20, R161). -/
theorem State.enterDetached_entry (s : State) (c : Channel) :
    s.enterDetached.entry c =
      if (s.entry c).view = .heldRemote then { s.entry c with view := .free, owner := none, slotIndex := none }
      else s.entry c :=
  State.entry_of_mapEntries ChannelEntry.forgetRemote_initial rfl c

theorem ChannelEntry.muted_initial : ChannelEntry.initial.muted = ChannelEntry.initial := by
  simp [ChannelEntry.muted, ChannelEntry.initial, View.isLocal, ChannelEntry.unsubscribed]

theorem ChannelEntry.muted_eq (e : ChannelEntry) :
    e.muted =
      if e.view = .free ∨ e.view = .heldRemote then { e with subscription := .none, contextIndex := none }
      else { e with view := .free, owner := none, slotIndex := none, subscription := .none, contextIndex := none } := by
  unfold ChannelEntry.muted
  cases e with
  | mk view owner slotIndex subscription contextIndex discard trap group queued =>
    cases view <;> simp [View.isLocal, ChannelEntry.toFree, ChannelEntry.unsubscribed]

/-- MUTED entry, as R162 gives it. -/
theorem State.enterMuted_spec (s : State) (reason : MuteReason) : Muted reason s (s.enterMuted reason) := by
  refine ⟨?_, ?_, ?_, ?_, ?_, ?_, ?_, ?_, ?_, ?_, ?_⟩
  · simp [State.enterMuted]
  · intro i; unfold State.slotAt; simp [State.enterMuted]
  · intro i; unfold State.contextAt; simp [State.enterMuted]
  · intro c
    rw [State.entry_of_mapEntries (s := s) (f := ChannelEntry.muted) ChannelEntry.muted_initial
      (by simp [State.enterMuted]) c]
    exact ChannelEntry.muted_eq _
  · simp [State.enterMuted]
  · simp [State.enterMuted]
  · simp [State.enterMuted]
  · refine ⟨sortByKey PendingRequest.mutedOrder s.port.requests, sortByKey_perm .., sortByKey_sorted .., ?_⟩
    have hsum : ∀ l : List EventRecord, l.length = s.port.requests.length →
        (s.events.records ++ l).length + 0 = s.eventSum := by
      intro l hl; unfold State.eventSum; simp [hl]
    have hl : ((sortByKey PendingRequest.mutedOrder s.port.requests).map PendingRequest.mutedRecord).length =
        s.port.requests.length := by
      rw [List.length_map]; exact (sortByKey_perm ..).length_eq
    have hm : PendingRequest.mutedRecord = fun r : PendingRequest =>
        EventRecord.completion ⟨r.tag, r.kind, if r.kind = .withdraw then .incomplete else .abandoned, r.channel,
          none, none, false⟩ := rfl
    unfold State.enterMuted
    rw [State.notify_events]
    have he := hsum _ hl
    unfold State.eventSum at he ⊢
    simp only [List.length_nil] at he ⊢
    rw [he, hm]
    rfl
  · simp [State.enterMuted]
  · simp [State.enterMuted]
  · simp [State.enterMuted]

end Sys2Proof.Machine
end

