-- ==== Sys2Proof/Tests/Slice0.lean ====
section
/-! SUPPORT. The author's own tests: the checks of WellFormed each with a term they refuse, the formats against octets
written out from the manual, one step of a few commands each, and, for every statement with hypotheses, states and operands
that meet them. -/

namespace Sys2Proof.Tests

open Sys2Proof.Machine

/-! ### States to test on -/

/-- A startup record in which every field is in its range (R151). -/
def record : StartupRecord := ⟨1, 10, 3, 2, 5, 20, 50, 3, 16, 16, 16, 16, 16, 8, 31⟩

/-- Station 10, ACTIVE with epoch 1, holding nothing. -/
def active : State :=
  { State.reset with
    station := { State.reset.station with mode := .active, number := 10, epoch := 1, startup := some record,
                                          presence := some 100 } }

/-- The same station in another state. -/
def inMode (m : Mode) : State := { active with station := { active.station with mode := m } }

/-- Station 12 PRESENT with epoch 7. -/
def known (s : State) : State := { s with peers := [(12, ⟨7, some 10, 300, 0⟩)] }

/-- Station 12 PRESENT, its peer timer run out. -/
def silent : State := { active with peers := [(12, ⟨7, some 10, 0, 300⟩)] }

/-- A slot of a channel in a phase, and nothing else. -/
def plainSlot (c : Channel) (p : Phase) : Slot := ⟨c, p, none, none, none, 0, 0, none, none, false, none, none⟩

/-- A context of a channel in a state, and nothing else. -/
def plainContext (c : Channel) (st : ContextState) : Context :=
  ⟨c, st, none, none, none, none, none, none, false, none⟩

/-- The state with a slot, shown by its channel's entry. -/
def withSlot (s : State) (i : Nat) (sl : Slot) : State :=
  (s.putSlot i sl).setEntry sl.channel ((s.entry sl.channel).toLocal sl.phase.view s.station.number i)

/-- The state with a context, shown by its channel's entry. -/
def withContext (s : State) (i : Nat) (k : Context) : State :=
  (s.putContext i k).setEntry k.channel ((s.entry k.channel).subscribed k.state.shown i)

/-- The state with a channel held by station x. -/
def withRemote (s : State) (c : Channel) (x : Station) : State := s.setEntry c ((s.entry c).toRemote x)

/-- The state with an attempt of a sender in progress. -/
def sending (s : State) (a : Sender) : State := s.setAttempt (some ⟨a, s.ownMessage false 300 0 .claim⟩)

/-- The state with pending requests. -/
def withRequests (s : State) (l : List PendingRequest) : State := { s with port := { s.port with requests := l } }

/-- A header of station x with epoch 7, on a channel, to a destination. -/
def heard (x : Station) (c : Channel) (d : Station) : Header := ⟨x, 0, 7, c, d⟩

/-- Channel 300 HELD with transmit sequence 4 and subscriber 12, in slot 0. -/
def holding : State := withSlot (known active) 0 { plainSlot 300 .held with transmitSequence := some 4, subscribers := 0x1000 }

/-- Channel 300 RELEASING, the drain begun, DRAIN on the wire, waiting for station 12, in slot 0. -/
def draining : State :=
  withSlot (known active) 0
    { plainSlot 300 .releasing with
      transmitSequence := some 4, subscribers := 0x1000, awaited := 0x1000, drainTimer := some 500,
      resendTimer := some 20, owed := some ⟨.drain, 0, true⟩, tag := some 9 }

/-- The same slot at the end of its drain time and of its resend time. -/
def spent : State :=
  draining.putSlot 0
    { plainSlot 300 .releasing with
      transmitSequence := some 4, subscribers := 0x1000, awaited := 0x1000, drainTimer := some 0, resendTimer := some 0,
      tag := some 9 }

/-- Channel 300 held by station 12 and JOINED in context 0, next sequence 250. -/
def subscribed : State :=
  withContext (withRemote (known active) 300 12) 0
    { plainContext 300 .joined with owner := some 12, expected := some 250 }

/-- Channel 300 JOINING in context 0, one attempt used, at the owner 12. -/
def joining : State :=
  withContext (withRemote (known active) 300 12) 0
    { plainContext 300 .joining with attemptsUsed := some 1, responseTimer := some 4, tag := some 3 }

/-- Channel 300 LEAVING in context 0, one attempt used. -/
def leaving : State :=
  withContext (withRemote (known active) 300 12) 0
    { plainContext 300 .leaving with owner := some 12, expected := some 250, attemptsUsed := some 1, tag := some 5 }

/-- A received cell of channel 300. -/
def cell : Descriptor := ⟨300, 12, 3, some 9, .delivered, [1, 2]⟩

/-- One cell of channel 300 in Q0, which the entry counts. -/
def storing (s : State) : State :=
  let s₁ := s.setEntry 300 { s.entry 300 with queued := 1 }
  { s₁ with store := { s₁.store with q0 := ⟨[cell], false, 0⟩, free := 255 } }

/-- A DATA entry of channel 300 at the head of the FIFO, its attempts, its marks, and what follows it. -/
def queued (s : State) (attempts : Nat) (wire purged : Bool) (rest : List FifoEntry) : State :=
  { s with store := { s.store with fifo := .data 300 4 [1, 2] attempts wire purged :: rest, free := 255 } }

/-- The next state of a command has a property. -/
def gives (c : Instr) (s : State) (p : State → Bool) : Bool :=
  match exec c s with
  | .next t => p t
  | .fault _ => false
  | .refused _ => false

/-! ### Well-formed commands -/

theorem test_wellFormed_send_length : (Instr.send 1 0 3 [1, 2]).wellFormed = false := by decide
theorem test_wellFormed_badRequest_code : (Instr.badRequest 19).wellFormed = false := by decide
theorem test_wellFormed_incomplete_bits : (Instr.incompleteRequest [6] 8).wellFormed = false := by decide
theorem test_wellFormed_incomplete_empty : (Instr.incompleteRequest [] 0).wellFormed = false := by decide
theorem test_wellFormed_incomplete_whole : (Instr.incompleteRequest [2, 1] 0).wellFormed = false := by decide
theorem test_wellFormed_source : (Instr.claimMessage (heard 63 300 0)).wellFormed = false := by decide
theorem test_wellFormed_epoch : (Instr.leftMessage ⟨12, 0, 0, 300, 0⟩).wellFormed = false := by decide
theorem test_wellFormed_deny_source : (Instr.denyMessage (heard 0 300 10) 1).wellFormed = false := by decide
theorem test_wellFormed_deny_reason : (Instr.denyMessage (heard 12 300 10) 3).wellFormed = false := by decide
theorem test_wellFormed_data_source : (Instr.dataMessage (heard 0 300 0) 0 1 [1]).wellFormed = false := by decide
theorem test_wellFormed_data_length : (Instr.dataMessage (heard 12 300 0) 0 2 [1]).wellFormed = false := by decide
theorem test_wellFormed_malformed :
    (Instr.malformedMessage (⟨heard 12 300 0, .claim⟩ : Message).octets).wellFormed = false := by decide +kernel
theorem test_wellFormed_peer : (Instr.peerTimerExpiry 63).wellFormed = false := by decide
theorem test_wellFormed_accepts : (Instr.send 1 300 2 [1, 2]).wellFormed = true := by decide

/-! ### Formats -/

theorem test_check_of_the_nine_digits :
    checkOf [0x31, 0x32, 0x33, 0x34, 0x35, 0x36, 0x37, 0x38, 0x39] = 0x29B1 := by decide +kernel
theorem test_frame_claim : decodeRequest [6, 4, 1, 44] = .request (.claimRequest 4 300) := by decide
theorem test_frame_send_cut : decodeRequest [8, 1, 1, 44, 2, 9] = .incomplete := by decide
theorem test_frame_bad_code : decodeRequest [20, 1] = .badCode 20 := by decide
theorem test_hold_octets :
    (⟨⟨12, 0, 3, 300, 20⟩, .hold⟩ : Message).octets.take 5 = [0x0C, 0x20, 0x03, 0x4B, 0x14] := by decide
theorem test_hold_read_back :
    parseMessage (⟨⟨12, 0, 3, 300, 20⟩, .hold⟩ : Message).octets = some ⟨⟨12, 0, 3, 300, 20⟩, .hold⟩ := by decide +kernel
theorem test_check_error_is_malformed :
    parseMessage [0x0C, 0x20, 0x03, 0x4B, 0x14, 0, 0] = none := by decide +kernel
theorem test_no_row_gives_bits : decodeTableWord 8 6 = none := by decide
theorem test_no_word_changes_the_queue : State.reset.withFetchWord 8 6 = State.reset := by rfl

/-! ### One step -/

theorem test_empty_queue_is_a_millisecond :
    step active = .next { active with station := { active.station with presence := some 99 } } := by rfl
theorem test_loadStartup_takes_the_record :
    gives (.loadStartup 1 record) State.reset
      (fun t => t.station.startup = some record && t.port.response = [0]) = true := by decide
theorem test_attach_listens :
    gives (.attach 1) (inMode .detached)
      (fun t => t.station.mode = .listening && t.station.epoch = 2 && t.station.listen = some 200) = true := by decide
theorem test_claim_takes_slot_0 :
    gives (.claimRequest 4 300) active
      (fun t => (t.slotAt 0).isSome && (t.entry 300).view = .claiming && t.port.response = [0]) = true := by decide
theorem test_claim_of_a_bad_channel :
    gives (.claimRequest 4 1024) active (fun t => t.port.response = [13]) = true := by decide
theorem test_send_answers_the_sequence :
    gives (.send 1 300 2 [1, 2]) holding
      (fun t => t.port.response = [0, 4] && t.store.free = 255 && t.store.fifo.length = 1) = true := by decide
theorem test_release_on_an_empty_fifo_drains_at_once :
    gives (.releaseRequest 9 300) holding
      (fun t => t.store.fifo = [] && (t.slotAt 0).any (fun sl => sl.owed = some ⟨.drain, 0, false⟩)) = true := by decide
theorem test_drained_closes_the_drain :
    gives (.drainedMessage (heard 12 300 10)) draining
      (fun t => (t.slotAt 0).any (fun sl => sl.owed = some ⟨.release, 0, false⟩)) = true := by decide
theorem test_cell_delivered_with_missing_count :
    gives (.dataMessage (heard 12 300 0) 3 2 [1, 2]) subscribed (fun t => t.store.q0.cells = [cell]) = true := by decide
theorem test_cell_out_of_window_is_stray :
    gives (.dataMessage (heard 12 300 0) 249 1 [1]) subscribed (fun t => t.classifier.stray = 1) = true := by decide
theorem test_take_returns_the_descriptor :
    gives (.take 1 0) (storing active)
      (fun t => t.port.response = [0, 0x4B, 0x0C, 3, 2, 0x89, 0x00, 0, 1, 2] && t.store.free = 256) = true := by decide
theorem test_lower_claim_wins :
    gives (.claimMessage (heard 5 300 0)) (withRequests (withSlot active 0 { plainSlot 300 .claiming with tag := some 4 })
        [⟨4, .claim, some 300⟩])
      (fun t => t.slotAt 0 = none && t.port.requests = [] &&
        t.events.records.getLast? = some (.completion ⟨4, .claim, .lostContest, some 300, some 5, none, false⟩)) = true := by
  decide
theorem test_epoch_change_is_departure_and_arrival :
    gives (.beaconMessage ⟨12, 0, 8, 0, 0⟩ 10) (known active)
      (fun t => t.events.records = [.notification (.peerLost 12 .restarted 7) 0, .notification (.peerArrived 12 8) 0])
        = true := by decide
theorem test_thirty_second_failure_mutes :
    gives (.failedAttempt .checkError) ((sending active .beacon).setFailures 31)
      (fun t => t.station.mode = .muted .spanFailures) = true := by decide
theorem test_drain_time_left_keeps_the_drain : exec (.drainTimerExpiry 0) draining = .next draining := by rfl
theorem test_silent_peer_is_lost :
    gives (.peerTimerExpiry 12) silent
      (fun t => t.peers = [] && t.events.records = [.notification (.peerLost 12 .timeout 7) 0]) = true := by decide
theorem test_message_taken_first_keeps_the_peer :
    gives (.beaconMessage (heard 12 0 0) 0) silent
      (fun t => t.peers = [(12, ⟨7, some 10, 300, 0⟩)] && gives (.peerTimerExpiry 12) t (fun u => u = t)) = true := by decide
theorem test_reset_is_held :
    gives (.powerOnReset .asserted) holding
      (fun t => t.slots = [] && t.sdo .request = .highImpedance && gives (.readStation 1) t (fun u => u = t)) = true := by decide
theorem test_release_samples_the_straps :
    gives (.powerOnReset (.released 10 false)) State.reset.assertReset (fun t => t = State.afterReset 10) = true := by decide
theorem test_transaction_begun_in_reset_is_not_taken :
    gives (.powerOnReset (.released 10 true)) State.reset.assertReset
      (fun t => t.sdo (.response 0) = .octet 0 && gives (.restart 1) t (fun u => u = State.afterReset 10)) = true := by decide
theorem test_response_ends_in_zeros :
    (active.respond .busy []).sdo (.response 0) = .octet 14 ∧ (active.respond .busy []).sdo (.response 1) = .octet 0 := by
  decide
theorem test_forced_end_of_a_drain :
    gives (.drainTimerExpiry 0) spent
      (fun t => (t.slotAt 0).any (fun sl => sl.forced && sl.laggards = some 1 && sl.awaited = 0)) = true := by decide

/-! ### States and operands that meet the hypotheses of the statements

One theorem for each statement that has hypotheses, one conjunct for each of its clauses, at the ends of the ranges. -/

/-- The station with every slot and every context taken. -/
def full : State :=
  { active with slots := (List.range 32).map (fun i => (i, plainSlot (BitVec.ofNat 10 i) .held)),
                contexts := (List.range 64).map (fun i => (i, plainContext (BitVec.ofNat 10 (i + 32)) .joined)) }

/-- A station about to withdraw: a claim, a commit, a holding and a release, a join and a subscription. -/
def busy : State :=
  let s₁ := withSlot active 0 { plainSlot 5 .claiming with tag := some 1, owed := some ⟨.claim, 0, false⟩ }
  let s₂ := withSlot s₁ 1 { plainSlot 6 .announcing with tag := some 2, owed := some ⟨.announce, 0, false⟩ }
  let s₃ := withSlot s₂ 2 { plainSlot 7 .held with transmitSequence := some 0 }
  let s₄ := withSlot s₃ 3 { plainSlot 8 .releasing with owed := some ⟨.release, 0, false⟩ }
  let s₅ := withContext s₄ 0 { plainContext 9 .joining with tag := some 3, owed := some ⟨.join, 0, 0, false⟩ }
  let s₆ := withContext (withRemote s₅ 10 12) 1 { plainContext 10 .joined with owner := some 12 }
  withRequests s₆ [⟨1, .claim, some 5⟩, ⟨2, .claim, some 6⟩, ⟨3, .join, some 9⟩]

/-- Held in reset, and released with a transaction open. -/
def held : State := State.reset.assertReset
def unreadYet : State := held.releaseReset 10 true

theorem witness_PowerOnReset :
    (ResetLaw held ∧ held.station.inReset = true ∧ ∀ straps selected, Instr.echo ≠ .powerOnReset (.released straps selected)) ∧
    (unreadYet.station.inReset = false ∧ unreadYet.port.unread = true ∧ PortCommand (.restart 1)) ∧
    State.reset.station.inReset = false := by
  refine ⟨⟨fun _ => rfl, rfl, ?_⟩, ⟨rfl, rfl, trivial⟩, rfl⟩
  intro straps selected h
  cases h

theorem witness_Lines :
    active.span.attempt = none ∧ (sending active .beacon).span.attempt.isSome = true ∧ PortOpen active ∧
    0 < (active.respond .busy []).port.response.length ∧ (active.respond .busy []).port.response.length ≤ 1 := by
  unfold PortOpen; decide

/-- The local port takes requests in every state that a witness of a request statement names. -/
theorem witness_PortOpen :
    PortOpen State.reset ∧ PortOpen active ∧ PortOpen full ∧ PortOpen busy ∧ PortOpen holding ∧ PortOpen draining ∧
    PortOpen subscribed ∧ PortOpen joining ∧ PortOpen leaving ∧ PortOpen (known active) ∧ PortOpen (storing active) ∧
    (∀ n : Nat, PortOpen { holding with store := { holding.store with free := n } }) ∧
    (∀ (s : State) (l : List PendingRequest), PortOpen s → PortOpen (withRequests s l)) ∧
    (∀ (s : State) (e : EventQueue), PortOpen s → PortOpen { s with events := e }) ∧
    (∀ (s : State) (n : Nat) (w m : Bool) (l : List FifoEntry), PortOpen s → PortOpen (queued s n w m l)) := by
  refine ⟨⟨rfl, rfl⟩, ⟨rfl, rfl⟩, ⟨rfl, rfl⟩, ⟨rfl, rfl⟩, ⟨rfl, rfl⟩, ⟨rfl, rfl⟩, ⟨rfl, rfl⟩, ⟨rfl, rfl⟩, ⟨rfl, rfl⟩,
    ⟨rfl, rfl⟩, ⟨rfl, rfl⟩, fun _ => ⟨rfl, rfl⟩, fun _ _ h => h, fun _ _ h => h, fun _ _ _ _ _ h => h⟩

theorem witness_StepRunsTheFrontCommand : ({ active with pending := [.echo] } : State).pending = .echo :: [] := by rfl

theorem witness_EmptyQueueStepIsOneMillisecond : active.pending = [] ∧ TableLaw active := by unfold TableLaw; decide

theorem witness_LoadStartup_refused :
    active.station.mode ≠ .detached ∧
    (State.reset.station.mode = .detached ∧ (queued State.reset 0 false false []).store.fifo ≠ []) ∧
    (¬ FieldInRange { record with rateClass := 4 } 1) ∧
    ((∀ m, 1 ≤ m → m < 15 → FieldInRange { record with attentionMask := 32 } m) ∧
      ¬ FieldInRange { record with attentionMask := 32 } 15) := by
  refine ⟨by decide, by decide, by simp [FieldInRange], ?_, by simp [FieldInRange]⟩
  intro m h1 h2
  interval_cases m <;> simp [FieldInRange, record]

theorem witness_LoadStartup_accepted :
    State.reset.station.mode = .detached ∧ (∀ q, (State.reset.store.queue q).cells = []) ∧ State.reset.store.fifo = [] ∧
      ∀ n, 1 ≤ n → n ≤ 15 → FieldInRange record n := by
  refine ⟨rfl, fun q => by cases q <;> rfl, rfl, ?_⟩
  intro n h1 h2
  interval_cases n <;> simp [FieldInRange, record]

/-- The station with sixteen pending requests, tags 1 to 16. -/
def crowded : State := withRequests active ((List.range 16).map fun n => ⟨BitVec.ofNat 8 (n + 1), .claim, none⟩)

/-- The station with 64 event records. -/
def overfull : State := { active with events := ⟨List.replicate 64 (.notification .restarted 0), 0⟩ }

theorem witness_LongRequestsFirstPassTheCommonChecks :
    Instr.attach 0 ∈ [.attach 0, .withdraw 0, .claimRequest 0 300, .releaseRequest 0 300, .joinRequest 0 300,
      .leaveRequest 0 300] ∧
    crowded.requestWith 16 ≠ none ∧
    (crowded.requestWith 17 = none ∧ crowded.port.requests.length = 16) ∧
    (overfull.requestWith 1 = none ∧ overfull.port.requests.length < 16 ∧ overfull.eventSum = 64) := by decide

theorem witness_Attach :
    (PassesCommonChecks active 1 ∧ active.station.mode = .active) ∧
    (PassesCommonChecks State.reset 1 ∧ State.reset.station.mode = .detached ∧ State.reset.station.startup = none) ∧
    (PassesCommonChecks (inMode .detached) 1 ∧ (inMode .detached).station.mode = .detached ∧
      (inMode .detached).station.startup = some record ∧ (inMode .detached).station.number ≠ 0 ∧
      (inMode .detached).station.number ≠ 63) ∧
    (PassesCommonChecks (inMode (.muted .spanFailures)) 255 ∧
      (inMode (.muted .spanFailures)).station.mode = .muted .spanFailures ∧
      (inMode (.muted .spanFailures)).station.startup = some record) ∧
    (PassesCommonChecks { State.afterReset 63 with station := { (State.afterReset 63).station with startup := some record } } 1 ∧
      (State.afterReset 63).station.number = 63 ∧ (State.afterReset 0).station.number = 0) := by
  unfold PassesCommonChecks PortOpen; decide

theorem busy_slots (i : Nat) (sl : Slot) (h : busy.slotAt i = some sl) :
    (i = 0 ∧ sl.phase = .claiming ∧ sl.tag = some 1 ∧ sl.channel = 5) ∨
      (i = 1 ∧ sl.phase = .announcing ∧ sl.tag = some 2 ∧ sl.channel = 6) ∨ sl.tag = none := by
  have hm := FMap.mem_of_find? h
  have hb : busy.slots = [(0, _), (1, _), (2, _), (3, _)] := rfl
  rw [hb] at hm
  simp only [List.mem_cons, Prod.mk.injEq, List.not_mem_nil, or_false] at hm
  rcases hm with ⟨rfl, rfl⟩ | ⟨rfl, rfl⟩ | ⟨rfl, rfl⟩ | ⟨rfl, rfl⟩
  · exact .inl ⟨rfl, rfl, rfl, rfl⟩
  · exact .inr (.inl ⟨rfl, rfl, rfl, rfl⟩)
  · exact .inr (.inr rfl)
  · exact .inr (.inr rfl)

theorem busy_contexts (i : Nat) (k : Context) (h : busy.contextAt i = some k) :
    (i = 0 ∧ k.state = .joining ∧ k.tag = some 3 ∧ k.channel = 9) ∨ k.tag = none := by
  have hm := FMap.mem_of_find? h
  have hb : busy.contexts = [(0, _), (1, _)] := rfl
  rw [hb] at hm
  simp only [List.mem_cons, Prod.mk.injEq, List.not_mem_nil, or_false] at hm
  rcases hm with ⟨rfl, rfl⟩ | ⟨rfl, rfl⟩
  · exact .inl ⟨rfl, rfl, rfl, rfl⟩
  · exact .inr rfl

theorem busy_requests (r : PendingRequest) (h : r ∈ busy.port.requests) :
    r = ⟨1, .claim, some 5⟩ ∨ r = ⟨2, .claim, some 6⟩ ∨ r = ⟨3, .join, some 9⟩ := by
  have hb : busy.port.requests = [⟨1, .claim, some 5⟩, ⟨2, .claim, some 6⟩, ⟨3, .join, some 9⟩] := rfl
  rw [hb] at h
  simpa using h

theorem busy_work : WorkLaw busy := by
  refine ⟨?_, ?_, ?_, ?_, ?_⟩
  · intro i sl w h hw
    rcases busy_slots i sl h with ⟨-, hp, ht, hc⟩ | ⟨-, hp, ht, hc⟩ | ht <;> rw [ht] at hw <;> cases hw <;> rw [hp, hc] <;>
      exact ⟨_, rfl, by decide⟩
  · intro i k w h hw
    rcases busy_contexts i k h with ⟨-, hp, ht, hc⟩ | ht <;> rw [ht] at hw <;> cases hw
    rw [hp, hc]
    exact ⟨_, rfl, by decide⟩
  · intro r hr hk
    rcases busy_requests r hr with rfl | rfl | rfl
    · exact ⟨0, _, rfl, rfl, rfl⟩
    · exact ⟨1, _, rfl, rfl, rfl⟩
    · rcases hk with hk | hk <;> cases hk
  · intro r hr hk
    rcases busy_requests r hr with rfl | rfl | rfl
    · rcases hk with hk | hk <;> cases hk
    · rcases hk with hk | hk <;> cases hk
    · exact ⟨0, _, rfl, rfl, rfl⟩
  · intro r hr hk
    rcases busy_requests r hr with rfl | rfl | rfl <;> rcases hk with hk | hk <;> cases hk

theorem busy_entry (c : Channel) :
    c = 5 ∨ c = 6 ∨ c = 7 ∨ c = 8 ∨ c = 9 ∨ c = 10 ∨ busy.entry c = ChannelEntry.initial := by
  have h : busy.channels = [(5, busy.entry 5), (6, busy.entry 6), (7, busy.entry 7), (8, busy.entry 8),
    (9, busy.entry 9), (10, busy.entry 10)] := by decide
  by_cases h5 : 5 = c.toNat
  · exact .inl (BitVec.eq_of_toNat_eq h5.symm)
  by_cases h6 : 6 = c.toNat
  · exact .inr (.inl (BitVec.eq_of_toNat_eq h6.symm))
  by_cases h7 : 7 = c.toNat
  · exact .inr (.inr (.inl (BitVec.eq_of_toNat_eq h7.symm)))
  by_cases h8 : 8 = c.toNat
  · exact .inr (.inr (.inr (.inl (BitVec.eq_of_toNat_eq h8.symm))))
  by_cases h9 : 9 = c.toNat
  · exact .inr (.inr (.inr (.inr (.inl (BitVec.eq_of_toNat_eq h9.symm)))))
  by_cases h10 : 10 = c.toNat
  · exact .inr (.inr (.inr (.inr (.inr (.inl (BitVec.eq_of_toNat_eq h10.symm))))))
  unfold State.entry at *
  rw [h]
  simp [FMap.find?, h5, h6, h7, h8, h9, h10]

theorem busy_owns : OwnershipLaw busy := by
  refine ⟨?_, ?_, ?_, ?_⟩
  · intro i sl h
    have hm := FMap.mem_of_find? h
    have hb : busy.slots = [(0, _), (1, _), (2, _), (3, _)] := rfl
    rw [hb] at hm
    simp only [List.mem_cons, Prod.mk.injEq, List.not_mem_nil, or_false] at hm
    rcases hm with ⟨rfl, rfl⟩ | ⟨rfl, rfl⟩ | ⟨rfl, rfl⟩ | ⟨rfl, rfl⟩ <;> decide
  · intro c hc
    rcases busy_entry c with rfl | rfl | rfl | rfl | rfl | rfl | h
    · exact ⟨0, _, rfl, rfl⟩
    · exact ⟨1, _, rfl, rfl⟩
    · exact ⟨2, _, rfl, rfl⟩
    · exact ⟨3, _, rfl, rfl⟩
    · cases hc
    · cases hc
    · rw [h] at hc; cases hc
  · intro c hc
    rcases busy_entry c with rfl | rfl | rfl | rfl | rfl | rfl | h
    · cases hc
    · cases hc
    · cases hc
    · cases hc
    · rfl
    · rfl
    · rw [h]; rfl
  · intro c
    rcases busy_entry c with rfl | rfl | rfl | rfl | rfl | rfl | h
    · decide
    · decide
    · decide
    · decide
    · decide
    · decide
    · rw [h]; decide

theorem busy_subscribes : SubscriptionLaw busy := by
  refine ⟨?_, ?_, ?_, ?_⟩
  · intro i k h
    have hm := FMap.mem_of_find? h
    have hb : busy.contexts = [(0, _), (1, _)] := rfl
    rw [hb] at hm
    simp only [List.mem_cons, Prod.mk.injEq, List.not_mem_nil, or_false] at hm
    rcases hm with ⟨rfl, rfl⟩ | ⟨rfl, rfl⟩ <;> decide
  · intro c hc
    rcases busy_entry c with rfl | rfl | rfl | rfl | rfl | rfl | h
    · exact absurd rfl hc
    · exact absurd rfl hc
    · exact absurd rfl hc
    · exact absurd rfl hc
    · exact ⟨0, _, rfl, rfl⟩
    · exact ⟨1, _, rfl, rfl⟩
    · rw [h] at hc; exact absurd rfl hc
  · intro c hc
    rcases busy_entry c with rfl | rfl | rfl | rfl | rfl | rfl | h
    · rfl
    · rfl
    · rfl
    · rfl
    · cases hc
    · cases hc
    · rw [h]; rfl
  · intro c hc
    rcases busy_entry c with rfl | rfl | rfl | rfl | rfl | rfl | h
    · rfl
    · rfl
    · rfl
    · rfl
    · cases hc
    · cases hc
    · rw [h] at hc; cases hc

theorem witness_Withdraw :
    (PassesCommonChecks (inMode .listening) 9 ∧ (inMode .listening).station.mode ≠ .active) ∧
    (PassesCommonChecks busy 9 ∧ busy.station.mode = .active ∧ TableLaw busy ∧ RequestLaw busy ∧
      headMarkers busy.store.fifo = []) ∧ OwnershipLaw busy ∧ SubscriptionLaw busy ∧ WorkLaw busy := by
  refine ⟨by unfold PassesCommonChecks PortOpen; decide, by unfold PassesCommonChecks PortOpen TableLaw RequestLaw; decide,
    busy_owns, busy_subscribes, busy_work⟩

theorem witness_Reading :
    (1023 < (1024 : Half).toNat ∧ (1023 : Half).toNat ≤ 1023) ∧
    (3 < (4 : Octet).toNat ∧ (3 : Octet).toNat = (3 : Fin 4).val) ∧
    ((0 : Octet).toNat = 0 ∧ 62 < (63 : Octet).toNat) ∧
    ((10 : Octet).toNat = (10 : Station).toNat ∧ (10 : Station) = active.station.number) ∧
    ((62 : Octet).toNat = (62 : Station).toNat ∧ (62 : Station) ≠ 63 ∧ active.peerAt 62 = none) ∧
    ((12 : Octet).toNat = (12 : Station).toNat ∧ (known active).peerAt 12 = some ⟨7, some 10, 300, 0⟩) := by decide

theorem witness_ClaimAndJoin_refused :
    (PassesCommonChecks (inMode .withdrawing) 1 ∧ (inMode .withdrawing).station.mode ≠ .active) ∧
    (PassesCommonChecks active 1 ∧ active.station.mode = .active ∧ 1023 < (1024 : Half).toNat) ∧
    (PassesCommonChecks holding 1 ∧ (holding.entry (toChannel 300)).view = .heldLocal) ∧
    ((withSlot active 0 (plainSlot 1023 .claiming)).entry (toChannel 1023)).view = .claiming ∧
    ((withSlot active 0 (plainSlot 1023 .announcing)).entry (toChannel 1023)).view = .announcing ∧
    (draining.entry (toChannel 300)).view = .releasing ∧
    ((subscribed.entry (toChannel 300)).view = .heldRemote ∧ (subscribed.entry (toChannel 300)).subscription ≠ .none) := by
  unfold PassesCommonChecks PortOpen; decide

theorem witness_ClaimAndJoin_full :
    PassesCommonChecks full 1 ∧ (full.entry (toChannel 300)).view = .free ∧
      (full.entry (toChannel 300)).subscription = .none ∧ (∀ i, i < 32 → full.slotAt i ≠ none) ∧
      (∀ i, i < 64 → full.contextAt i ≠ none) := by unfold PassesCommonChecks PortOpen; decide

/-- The station with all slots but the last, and all contexts but the last, taken. -/
def almostFull : State := { full with slots := full.slots.take 31, contexts := full.contexts.take 63 }

theorem witness_ClaimAndJoin_accepted :
    (PassesCommonChecks active 1 ∧ (active.entry (toChannel 300)).view = .free ∧ active.slotAt 0 = none ∧
      active.contextAt 0 = none) ∧
    (PassesCommonChecks almostFull 1 ∧ almostFull.slotAt 31 = none ∧ (∀ j, j < 31 → almostFull.slotAt j ≠ none) ∧
      almostFull.contextAt 63 = none ∧ (∀ j, j < 63 → almostFull.contextAt j ≠ none)) ∧
    (PassesCommonChecks (withRemote active 300 12) 1 ∧
      ((withRemote active 300 12).entry (toChannel 300)).view = .heldRemote ∧
      ((withRemote active 300 12).entry (toChannel 300)).owner = some 12) := by unfold PassesCommonChecks PortOpen; decide

theorem witness_Send_refused_unloaded :
    PortOpen (State.afterReset 1) ∧ (State.afterReset 1).station.startup = none ∧
      ((State.afterReset 1).entry (toChannel 300)).view = .free ∧ ([9] : List Octet).length = (1 : Octet).toNat ∧
      exec (.send 1 300 1 [9]) (State.afterReset 1) = .next ((State.afterReset 1).setResponse [18]) :=
  ⟨by unfold PortOpen; decide, rfl, by decide, by decide, rfl⟩

theorem witness_ReleaseAndSend_refused :
    (PassesCommonChecks holding 1 ∧ 1023 < (1024 : Half).toNat) ∧
    ((draining.entry (toChannel 300)).view = .releasing ∧
      (⟨9, .release, some 300⟩ : PendingRequest) ∈ (withRequests draining [⟨9, .release, some 300⟩]).port.requests) ∧
    ((active.entry (toChannel 300)).view = .free ∧ draining.port.requests = []) ∧
    ((holding.entry (toChannel 300)).view = .heldLocal ∧ (holding.entry (toChannel 300)).slotIndex = some 0 ∧
      (holding.slotAt 0).bind Slot.transmitSequence = some 4) ∧
    ((List.replicate 65 (0 : Octet)).length = (65 : Octet).toNat ∧ 64 < (65 : Octet).toNat ∧
      ([] : List Octet).length = (0 : Octet).toNat) ∧
    (record.transmitLimit.toNat ≤
      dataEntries (queued holding 0 false false (List.replicate 7 (.data 300 5 [1] 0 false false))).store.fifo) ∧
    (dataEntries holding.store.fifo < record.transmitLimit.toNat ∧
      ({ holding with store := { holding.store with free := 0 } } : State).store.free = 0) := by
  unfold PassesCommonChecks PortOpen; decide

theorem witness_ReleaseAndSend_accepted :
    (PassesCommonChecks holding 1 ∧ holding.station.startup = some record ∧
      (holding.entry (toChannel 300)).view = .heldLocal ∧ (holding.entry (toChannel 300)).slotIndex = some 0 ∧
      (holding.slotAt 0).map Slot.channel = some (toChannel 300) ∧ holding.store.fifo = []) ∧
    (headMarkers (queued holding 0 false false []).store.fifo = [] ∧ (queued holding 0 false false []).store.fifo ≠ []) ∧
    ((holding.slotAt 0).bind Slot.transmitSequence = some 4 ∧ dataEntries holding.store.fifo < record.transmitLimit.toNat ∧
      0 < holding.store.free ∧ 1 ≤ (1 : Octet).toNat ∧ (64 : Octet).toNat ≤ 64 ∧
      (List.replicate 64 (0 : Octet)).length = (64 : Octet).toNat) := by unfold PassesCommonChecks PortOpen; decide

theorem witness_Leave :
    PassesCommonChecks subscribed 1 ∧ (active.entry (toChannel 300)).subscription = .none ∧
    (joining.entry (toChannel 300)).subscription = .joining ∧
    ((leaving.entry (toChannel 300)).subscription = .leaving ∧ (leaving.entry (toChannel 300)).contextIndex = some 0 ∧
      (leaving.contextAt 0).map Context.channel = some (toChannel 300)) ∧
    ((subscribed.entry (toChannel 300)).subscription = .joined ∧
      (subscribed.entry (toChannel 300)).contextIndex = some 0 ∧
      (subscribed.contextAt 0).bind Context.owner = some 12) := by unfold PassesCommonChecks PortOpen; decide

theorem witness_SetActionAndSetFilter :
    (3 < ((0x04 : Octet) &&& 0x0F).toNat ∧ ((0xC3 : Octet) &&& 0x0F).toNat = (3 : Fin 4).val) ∧
    (3 < (4 : Octet).toNat ∧ 1023 < (1024 : Half).toNat ∧ (4 : Half).toNat < (5 : Half).toNat ∧ 62 < (63 : Octet).toNat) ∧
    ((3 : Octet).toNat = (3 : Fin 4).val ∧ (1023 : Half).toNat ≤ 1023 ∧ (62 : Octet).toNat ≤ 62) := by decide

theorem witness_TakeAndFlush :
    4 < (5 : Octet).toNat ∧
    ((4 : Octet).toNat = QueueName.qm.number ∧ (active.store.queue .qm).cells = []) ∧
    ((0 : Octet).toNat = QueueName.q0.number ∧ ((storing active).store.queue .q0).cells = cell :: []) := by decide

/-- Channel 300 DRAINING in context 0, one cell of it waiting in Q0. -/
def lastCell : State :=
  storing (withContext (withRemote (known active) 300 12) 0
    { plainContext 300 .draining with owner := some 12, expected := some 250, drainWait := some 1000 })

theorem lastCell_entry (c : Channel) : c ≠ 300 → lastCell.entry c = ChannelEntry.initial := by
  intro hc
  have h : lastCell.channels = [(300, lastCell.entry 300)] := by decide
  unfold State.entry at *
  rw [h]
  have : ¬ (300 = c.toNat) := fun e => hc (BitVec.eq_of_toNat_eq e.symm)
  simp [FMap.find?, this]

theorem lastCell_context (i : Nat) (k : Context) (h : lastCell.contextAt i = some k) :
    i = 0 ∧ k.state = .draining ∧ k.channel = 300 := by
  have hm := FMap.mem_of_find? h
  have hb : lastCell.contexts = [(0, _)] := rfl
  rw [hb] at hm
  simp only [List.mem_cons, Prod.mk.injEq, List.not_mem_nil, or_false] at hm
  obtain ⟨rfl, rfl⟩ := hm
  exact ⟨rfl, rfl, rfl⟩

theorem lastCell_agrees : SubscriptionLaw lastCell := by
  refine ⟨?_, ?_, ?_, ?_⟩
  · intro i k h
    obtain ⟨rfl, hs, hc⟩ := lastCell_context i k h
    rw [hc, hs]
    decide
  · intro c hc
    by_cases h : c = 300
    · exact ⟨0, _, rfl, h ▸ rfl⟩
    · rw [lastCell_entry c h] at hc; exact absurd rfl hc
  · intro c hc
    by_cases h : c = 300
    · subst h; revert hc; decide
    · rw [lastCell_entry c h]; rfl
  · intro c hc
    by_cases h : c = 300
    · subst h; revert hc; decide
    · rw [lastCell_entry c h]; rfl

theorem witness_Flush_owes_DRAINED :
    (0 < (lastCell.store.queue .q0).cellsOf 300 ∧
      (lastCell.entry 300).queued = (lastCell.store.queue .q0).cellsOf 300 ∧
      (lastCell.entry 300).subscription = .draining ∧ (lastCell.entry 300).contextIndex = some 0 ∧
      (lastCell.contextAt 0).isSome = true) ∧ SubscriptionLaw lastCell := ⟨by decide, lastCell_agrees⟩

theorem witness_ReadEvent :
    active.events.records = [] ∧
    ({ active with events := ⟨[.completion ⟨1, .claim, .ok, some 300, none, none, false⟩], 0⟩ } : State).events.records =
      .completion ⟨1, .claim, .ok, some 300, none, none, false⟩ :: [] ∧
    ({ active with events := ⟨[.notification (.peerLost 12 .timeout 7) 3], 0⟩ } : State).events.records =
      .notification (.peerLost 12 .timeout 7) 3 :: [] := by decide

theorem witness_Abort :
    active.requestWith 1 = none ∧
    (withRequests draining [⟨9, .release, some 300⟩]).requestWith 9 = some ⟨9, .release, some 300⟩ ∧
    (busy.requestWith 1 = some ⟨1, .claim, some 5⟩ ∧ (busy.entry 5).slotIndex = some 0 ∧
      (busy.slotAt 0).map Slot.phase = some .claiming) ∧
    (busy.requestWith 2 = some ⟨2, .claim, some 6⟩ ∧ (busy.entry 6).slotIndex = some 1 ∧
      (busy.slotAt 1).map Slot.phase = some .announcing) ∧
    (busy.requestWith 3 = some ⟨3, .join, some 9⟩ ∧ (busy.entry 9).contextIndex = some 0 ∧
      (busy.contextAt 0).map Context.state = some .joining) ∧
    ((withRequests (inMode .listening) [⟨1, .attach, none⟩]).requestWith 1 = some ⟨1, .attach, none⟩ ∧
      (inMode .listening).station.mode = .listening) := by decide

theorem witness_BadAndIncomplete :
    ((0 : Octet).toNat = 0 ∧ 20 ≤ (20 : Octet).toNat) ∧
    (([6, 4] : List Octet) ≠ [] ∧ decodeRequest [6, 4] = .incomplete) ∧ ((7 : Nat) ≠ 0 ∧ decodeRequest [] = .incomplete) := by
  decide

/-- A reply of each of two kinds, as it waits and as it is sent. -/
def reply (kind : ReplyKind) (wire overtaken : Bool) : Reply := ⟨kind, 300, 12, 0, wire, overtaken⟩

theorem witness_Transmit_reply_and_slot :
    (active.station.startup = some record ∧ TableLaw active) ∧
    (State.reset.transmitterOn = false ∧ (sending active .fifo).span.attempt ≠ none) ∧
    (active.transmitterOn = true ∧ active.span.attempt = none ∧
      (active.setReplies [reply .hold false false]).span.replies = reply .hold false false :: []) ∧
    (busy.span.replies = [] ∧ (busy.slotAt 0).bind Slot.owed = some ⟨.claim, 0, false⟩) := by unfold TableLaw; decide

theorem witness_Transmit_context :
    (leaving.slots = [] ∧ TableLaw leaving) ∧
    ((withContext active 0 { plainContext 9 .joining with owed := some ⟨.join, 0, 0, false⟩ }).contextAt 0).bind
      Context.owed = some ⟨.join, 0, 0, false⟩ := by unfold TableLaw; decide

theorem witness_Transmit_beacon_and_data :
    (active.slots = [] ∧ active.contexts = []) ∧
    (active.setBeacon (some ⟨false, 0, false⟩)).station.beacon = some ⟨false, 0, false⟩ ∧
    (active.station.beacon = none ∧
      (queued active 0 false false []).store.fifo = .data 300 4 [1, 2] 0 false false :: []) ∧ active.store.fifo = [] := by
  decide

/-- The attempt that `sending` puts on the wire has the sender it names. -/
theorem witness_attempt (s : State) (a : Sender) :
    (sending s a).span.attempt = some ⟨a, s.ownMessage false 300 0 .claim⟩ := rfl

/-- Channel 300 in slot 0, in a phase, a message of it on the wire after some failed attempts. -/
def slotSending (p : Phase) (m : SlotMessage) (attempts : Nat) (wire : Bool) : State :=
  sending (withSlot active 0 { plainSlot 300 p with owed := some ⟨m, attempts, wire⟩, tag := some 4 }) (.slot 0)

/-- Channel 300 in context 0, a message of it on the wire after some failed attempts. -/
def contextSending (st : ContextState) (m : ContextMessage) (attempts : Nat) (wire : Bool) : State :=
  sending (withContext active 0 { plainContext 300 st with owed := some ⟨m, 12, attempts, wire⟩, attemptsUsed := some 0 })
    (.context 0)

/-- The BEACON on the wire after some failed attempts. -/
def beaconSending (departing : Bool) (attempts : Nat) (wire : Bool) : State :=
  sending (active.setBeacon (some ⟨departing, attempts, wire⟩)) .beacon

/-- A reply on the wire. -/
def replySending (kind : ReplyKind) (overtaken : Bool) : State :=
  sending (active.setReplies [reply kind true overtaken]) .reply

/-- A DATA entry on the wire. -/
def dataSending (attempts : Nat) (purged : Bool) (rest : List FifoEntry) : State :=
  sending (queued active attempts true purged rest) .fifo

/-- A DATA entry on the wire with the marker of channel 7 behind it, which slot 2 has RELEASING. -/
def exposing (attempts : Nat) (purged : Bool) : State :=
  withSlot (dataSending attempts purged [.marker 7]) 2 (plainSlot 7 .releasing)

theorem witness_Consumed (attempts : Nat) (purged : Bool) :
    (exposing attempts purged).store.fifo = .data 300 4 [1, 2] attempts true purged :: [.marker 7] ∧
    Consumed (headMarkers [.marker 7]) (exposing attempts purged) 2 ∧
    ¬ Consumed (headMarkers [.marker 7]) (exposing attempts purged) 0 := by
  refine ⟨rfl, ⟨7, by decide, rfl⟩, ?_⟩
  rintro ⟨d, hd, h⟩
  have : d = 7 := by simpa [headMarkers] using hd
  subst this
  cases h

theorem witness_LostContention :
    ((slotSending .claiming .claim 0 true).slotAt 0).bind Slot.owed = some ⟨.claim, 0, true⟩ ∧
    ((contextSending .leaving .leave 0 true).contextAt 0).bind Context.owed = some ⟨.leave, 12, 0, true⟩ ∧
    (beaconSending false 0 true).station.beacon = some ⟨false, 0, true⟩ ∧
    (replySending .hold false).span.replies = reply .hold true false :: [] ∧
    (replySending .hold true).span.replies = reply .hold true true :: [] ∧
    (dataSending 0 false []).store.fifo = .data 300 4 [1, 2] 0 true false :: [] ∧
    ((dataSending 0 true []).store.fifo = .data 300 4 [1, 2] 0 true true :: [] ∧ headMarkers [] = []) := by decide

theorem witness_EchoOfASlotsMessage :
    ((slotSending .claiming .claim 0 true).slotAt 0).bind Slot.owed = some ⟨.claim, 0, true⟩ ∧
    ((slotSending .releasing .drain 0 true).slotAt 0).bind Slot.owed = some ⟨.drain, 0, true⟩ ∧
    ((slotSending .held .announce 0 true).slotAt 0).bind Slot.owed = some ⟨.announce, 0, true⟩ ∧
    (((slotSending .announcing .announce 0 true).slotAt 0).bind Slot.owed = some ⟨.announce, 0, true⟩ ∧
      (slotSending .announcing .announce 0 true).station.mode ≠ .withdrawing ∧
      headMarkers (slotSending .announcing .announce 0 true).store.fifo = []) ∧
    ({ slotSending .announcing .announce 0 true with
        station := { active.station with mode := .withdrawing } } : State).station.mode = .withdrawing ∧
    ((slotSending .releasing .release 0 true).slotAt 0).bind Slot.owed = some ⟨.release, 0, true⟩ ∧
    (slotSending .claiming .claim 0 true).station.startup = some record := by decide

theorem witness_EchoOfAContextsMessage :
    ((contextSending .joining .join 0 true).contextAt 0).bind Context.owed = some ⟨.join, 12, 0, true⟩ ∧
    ((contextSending .leaving .leave 0 true).contextAt 0).bind Context.owed = some ⟨.leave, 12, 0, true⟩ ∧
    ((contextSending .leaving .leave 0 true).contextAt 0).bind Context.attemptsUsed = some 0 ∧
    ((contextSending .draining .drained 0 true).contextAt 0).bind Context.owed = some ⟨.drained, 12, 0, true⟩ := by decide

theorem witness_EchoOfTheRest :
    (beaconSending false 0 true).station.beacon = some ⟨false, 0, true⟩ ∧
    ((beaconSending true 0 true).station.beacon = some ⟨true, 0, true⟩ ∧
      (withRequests (beaconSending true 0 true) [⟨8, .withdraw, none⟩]).port.requests = [⟨8, .withdraw, none⟩]) ∧
    (replySending .hold false).span.replies = reply .hold true false :: [] ∧
    ((dataSending 0 false []).store.fifo = .data 300 4 [1, 2] 0 true false :: [] ∧ headMarkers [] = []) ∧
    ((dataSending 0 false [.marker 7]).store.fifo = .data 300 4 [1, 2] 0 true false :: .marker 7 :: [] ∧
      ((withSlot (dataSending 0 false [.marker 7]) 2 (plainSlot 7 .releasing)).entry 7).slotIndex = some 2 ∧
      (withSlot (dataSending 0 false [.marker 7]) 2 (plainSlot 7 .releasing)).slotAt 2 = some (plainSlot 7 .releasing)) := by
  decide

theorem witness_Overtaken :
    (∀ sl o, (slotSending .held .announce 0 false).slotAt 0 = some sl → sl.owed = some o → o.onWire = false) ∧
    (∀ k o, (sending active (.context 0)).contextAt 0 = some k → k.owed = some o → o.onWire = false) ∧
    (∀ b, (sending active .beacon).station.beacon = some b → b.onWire = false) ∧
    (sending active .beacon).span.failures < 31 := by
  refine ⟨?_, ?_, ?_, by decide⟩
  · intro sl o h ho
    cases h
    cases ho
    rfl
  · intro k o h
    cases h
  · intro b h
    cases h

theorem witness_Failure :
    (slotSending .claiming .claim 0 true).span.failures < 31 ∧
    (0 + 1 < record.attemptLimit.toNat ∧ 1 + 1 < record.attemptLimit.toNat ∧ record.attemptLimit.toNat ≤ 2 + 1) ∧
    ((slotSending .claiming .claim 2 true).slotAt 0).bind Slot.owed = some ⟨.claim, 2, true⟩ ∧
    ((slotSending .announcing .announce 2 true).slotAt 0).bind Slot.owed = some ⟨.announce, 2, true⟩ ∧
    ((slotSending .held .announce 2 true).slotAt 0).bind Slot.owed = some ⟨.announce, 2, true⟩ ∧
    ((slotSending .releasing .drain 2 true).slotAt 0).bind Slot.owed = some ⟨.drain, 2, true⟩ ∧
    ((slotSending .releasing .release 2 true).slotAt 0).bind Slot.owed = some ⟨.release, 2, true⟩ ∧
    ((contextSending .joining .join 2 true).contextAt 0).bind Context.owed = some ⟨.join, 12, 2, true⟩ ∧
    ((contextSending .draining .drained 2 true).contextAt 0).bind Context.owed = some ⟨.drained, 12, 2, true⟩ ∧
    (beaconSending false 2 true).station.beacon = some ⟨false, 2, true⟩ ∧
    ((withRequests (beaconSending true 2 true) [⟨8, .withdraw, none⟩]).station.beacon = some ⟨true, 2, true⟩ ∧
      (withRequests (beaconSending true 2 true) [⟨8, .withdraw, none⟩]).span.failures < 31 ∧
      (withRequests (beaconSending true 2 true) [⟨8, .withdraw, none⟩]).port.requests = [⟨8, .withdraw, none⟩]) ∧
    (replySending .cleanupLeave false).span.replies = reply .cleanupLeave true false :: [] ∧
    (dataSending 2 false []).store.fifo = .data 300 4 [1, 2] 2 true false :: [] := by decide

/-- A departing BEACON at its last attempt, in the 32nd failure. -/
def lastBeacon : State := (withRequests (beaconSending true 2 true) [⟨8, .withdraw, none⟩]).setFailures 31

theorem witness_TheThirtySecondFailure :
    (((slotSending .held .announce 0 true).setFailures 31).span.failures = 31 ∧
      ((slotSending .held .announce 0 true).setFailures 31).transmitterOn = true) ∧
    (∀ b, ((slotSending .held .announce 0 true).setFailures 31).station.beacon = some b → b.departing = false) ∧
    (lastBeacon.span.attempt.map Attempt.sender = some .beacon ∧ lastBeacon.station.startup = some record ∧
      lastBeacon.span.failures = 31 ∧ lastBeacon.transmitterOn = true ∧
      lastBeacon.station.beacon = some ⟨true, 2, true⟩ ∧ record.attemptLimit.toNat ≤ 2 + 1 ∧
      lastBeacon.port.requests = [⟨8, .withdraw, none⟩]) := by
  refine ⟨by decide, ?_, by decide⟩
  intro b h
  cases h

theorem witness_DuplicateNumber :
    (State.reset.station.mode = .detached ∧ State.reset.span.attempt = none) ∧
    (inMode (.muted .duplicateNumber)).station.mode = .muted .duplicateNumber ∧
    ((withRequests (inMode .listening) [⟨1, .attach, none⟩]).station.mode = .listening ∧
      (withRequests (inMode .listening) [⟨1, .attach, none⟩]).port.requests = [⟨1, .attach, none⟩]) ∧
    (active.station.mode = .active ∧ (inMode .withdrawing).station.mode = .withdrawing) := by decide

theorem witness_FromPeer :
    FromPeer active (heard 12 300 10) ∧ FromPeer active (heard 1 300 0) ∧ FromPeer active (heard 62 300 0) ∧
    State.reset.receiverOn = false ∧ IntactBody (.data 0 [1]) ∧ IntactBody (.data 0 (List.replicate 64 0)) := by
  unfold FromPeer IntactBody; decide

theorem witness_MessagesAndThePeerTimer :
    (FromPeer active (heard 12 300 0) ∧ TableLaw active ∧ active.peerAt 12 = none) ∧
    (FromPeer (known active) ⟨12, 0, 8, 300, 0⟩ ∧ FromPeer (known active) ⟨12, 1, 7, 0, 0⟩ ∧ TableLaw (known active) ∧
      (known active).peerAt 12 = some ⟨7, some 10, 300, 0⟩) ∧
    ((heard 12 300 0).epoch = 7 ∧ (⟨12, 0, 8, 300, 0⟩ : Header).epoch ≠ 7) ∧
    ((heard 12 0 0).flags.getLsbD 0 = false ∧ (⟨12, 1, 7, 0, 0⟩ : Header).flags.getLsbD 0 = true) ∧
    (TableLaw silent ∧ silent.peerAt 12 = some ⟨7, some 10, 0, 300⟩ ∧ (300 : Nat) ≠ 0) := by
  unfold FromPeer TableLaw; decide

theorem witness_ClaimMessage :
    (FromPeer busy (heard 9 5 0) ∧ ((busy.peerTakes (heard 9 5 0) .claim).entry 5).view = .claiming ∧
      ((busy.peerTakes (heard 9 5 0) .claim).entry 5).slotIndex = some 0 ∧
      ((busy.peerTakes (heard 9 5 0) .claim).slotAt 0).map Slot.channel = some 5 ∧
      (9 : Station).toNat < (busy.peerTakes (heard 9 5 0) .claim).station.number.toNat) ∧
    (busy.peerTakes (heard 11 5 0) .claim).station.number.toNat < (11 : Station).toNat ∧
    ((busy.peerTakes (heard 9 6 0) .claim).entry 6).view = .announcing ∧
    ((busy.peerTakes (heard 9 300 0) .claim).entry 300).view = .free := by unfold FromPeer; decide

/-- Channel 300 held with a DATA entry of it at the FIFO's head, and behind it the marker of channel 7. -/
def contested : State := withSlot (queued holding 0 false false [.marker 7]) 2 (plainSlot 7 .releasing)

theorem witness_OwnerIndicating :
    (FromPeer subscribed (heard 12 300 0) ∧
      ((subscribed.peerTakes (heard 12 300 0) .hold).entry 300).view = .heldRemote ∧
      ((subscribed.peerTakes (heard 12 300 0) .hold).contextAt 0).bind Context.owner = some 12) ∧
    (((subscribed.peerTakes (heard 9 300 0) .drain).entry 300).contextIndex = some 0 ∧
      ((subscribed.peerTakes (heard 9 300 0) .drain).contextAt 0).bind Context.owner ≠ some 9) ∧
    (((busy.peerTakes (heard 9 5 0) (.admission 3)).entry 5).view = .claiming ∧
      ((busy.peerTakes (heard 9 5 0) (.admission 3)).entry 5).slotIndex = some 0) ∧
    (((contested.peerTakes (heard 9 300 0) (.data 1 [1])).entry 300).view = .heldLocal ∧
      FifoPurged 300 contested.store.fifo = [.marker 7] ∧ headMarkers [.marker 7] = [7] ∧
      (contested.entry 7).slotIndex = some 2 ∧
      (9 : Station).toNat < (contested.peerTakes (heard 9 300 0) (.data 1 [1])).station.number.toNat) ∧
    (((draining.peerTakes (heard 11 300 0) (.deny .releasing)).entry 300).view = .releasing ∧
      (draining.peerTakes (heard 11 300 0) (.deny .releasing)).station.number.toNat < (11 : Station).toNat) := by
  unfold FromPeer; decide

theorem witness_JoinMessage :
    FromPeer holding (heard 12 300 10) ∧ holding.station.number ≠ 0 ∧ (heard 12 300 11).destination ≠ 10 ∧
    (((holding.peerTakes (heard 12 300 10) .join).entry 300).view = .heldLocal ∧
      ((holding.peerTakes (heard 12 300 10) .join).slotAt 0).bind Slot.transmitSequence = some 4) ∧
    ((draining.peerTakes (heard 12 300 0) .join).entry 300).view = .releasing ∧
    ((busy.peerTakes (heard 12 5 0) .join).entry 5).view = .claiming ∧
    (((active.peerTakes (heard 12 300 0) .join).entry 300).view = .free ∧
      (heard 12 300 10).destination = (active.peerTakes (heard 12 300 10) .join).station.number) := by
  unfold FromPeer; decide

theorem witness_AdmitMessage :
    (((joining.peerTakes (heard 12 300 10) (.admission 3)).channelTakes (heard 12 300 10) (.admission 3)).contextAt 0).map
        Context.state = some .joining ∧
    (((subscribed.peerTakes (heard 12 300 10) (.admission 3)).channelTakes (heard 12 300 10) (.admission 3)).contextAt 0).map
        Context.state = some .joined ∧
    ((((known active).peerTakes (heard 12 300 10) (.admission 3)).channelTakes (heard 12 300 10) (.admission 3)).entry 300).view =
      .heldRemote ∧
    (((holding.peerTakes (heard 12 300 10) (.admission 3)).channelTakes (heard 12 300 10) (.admission 3)).entry 300).view =
      .heldLocal := by decide

theorem witness_DenyMessage :
    (active.receiverOn = true ∧ (0 : Octet) ≠ 1 ∧ (3 : Octet) ≠ 2) ∧
    ((((joining.peerTakes (heard 12 300 10) (.deny .releasing)).channelTakes (heard 12 300 10)
        (.deny .releasing)).contextAt 0).map Context.state = some .joining) ∧
    (((joining.peerTakes (heard 12 300 10) (.deny .notOwner)).contextAt 0).bind Context.attemptsUsed = some 1 ∧
      ((joining.peerTakes (heard 12 300 10) (.deny .notOwner)).entry 300).owner = some 12 ∧
      1 < record.attemptLimit.toNat) ∧
    record.attemptLimit.toNat ≤ 3 ∧
    (((subscribed.peerTakes (heard 12 300 10) (.deny .notOwner)).contextAt 0).map Context.state = some .joined ∧
      ((subscribed.peerTakes (heard 12 300 10) (.deny .notOwner)).contextAt 0).bind Context.attemptsUsed = none) ∧
    ((lastCell.peerTakes (heard 12 300 10) (.deny .notOwner)).contextAt 0).map Context.state = some .draining := by decide

theorem witness_LeaveAndLeft :
    FromPeer holding (heard 12 300 10) ∧
    ((holding.peerTakes (heard 12 300 10) .leave).entry 300).slotIndex = some 0 ∧
    ((holding.peerTakes (heard 12 300 10) .leave).slotAt 0).isSome = true ∧
    ((active.peerTakes (heard 12 300 10) .leave).entry 300).view = .free ∧
    (((leaving.peerTakes (heard 12 300 10) .left).contextAt 0).map Context.state = some .leaving ∧
      ((leaving.peerTakes (heard 12 300 10) .left).contextAt 0).bind Context.owner = some 12 ∧
      ((leaving.peerTakes (heard 12 300 10) .left).contextAt 0).map Context.channel = some 300) := by
  unfold FromPeer; decide

theorem witness_DrainAndDrained :
    ((((subscribed.peerTakes (heard 12 300 0) .drain).channelTakes (heard 12 300 0) .drain).contextAt 0).map
        Context.state = some .joined ∧
      (((subscribed.peerTakes (heard 12 300 0) .drain).channelTakes (heard 12 300 0) .drain).entry 300).queued = 0) ∧
    (((lastCell.peerTakes (heard 12 300 0) .drain).channelTakes (heard 12 300 0) .drain).contextAt 0).map
        Context.state = some .draining ∧
    (((draining.peerTakes (heard 12 300 10) .drained).slotAt 0).map Slot.phase = some .releasing ∧
      ((draining.peerTakes (heard 12 300 10) .drained).slotAt 0).map (fun sl => hasStation sl.awaited 12) = some true) ∧
    ((holding.peerTakes (heard 12 300 10) .drained).slotAt 0).map Slot.phase = some .held := by decide

theorem witness_ReleaseMessage :
    (((subscribed.peerTakes (heard 12 300 0) .release).entry 300).owner = some 12 ∧
      ((subscribed.peerTakes (heard 12 300 0) .release).entry 300).contextIndex = some 0 ∧
      ((subscribed.peerTakes (heard 12 300 0) .release).contextAt 0).bind Context.owner = some 12) ∧
    ((joining.peerTakes (heard 12 300 0) .release).contextAt 0).map Context.state = some .joining ∧
    ((active.peerTakes (heard 12 300 0) .release).entry 300).contextIndex = none := by decide

/-- The state in which the Classifier takes a cell of station 12 on channel 300. -/
def atClassifier (s : State) (q : Seq) : State :=
  (s.peerTakes (heard 12 300 0) (.data q [1, 2])).channelTakes (heard 12 300 0) (.data q [1, 2])

theorem witness_DataMessage :
    (((atClassifier subscribed 249).entry 300).contextIndex = some 0 ∧
      ((atClassifier subscribed 249).contextAt 0).bind Context.expected = some 250 ∧
      128 ≤ ((249 : Seq) - 250).toNat) ∧
    ((3 : Seq) - 250).toNat < 128 ∧
    ((atClassifier active 3).entry 300).contextIndex = none ∧
    ((atClassifier (active.setEntry 300 { ChannelEntry.initial with discard := true }) 3).entry 300).discard = true ∧
    ((atClassifier (active.setEntry 300 { ChannelEntry.initial with trap := true }) 3).entry 300).trap = true ∧
    ((atClassifier (active.setFilter 1 ⟨true, 300, 300, 0, 0x0102, 0xFFFF⟩) 3).filter 1).enabled = true ∧
    ((atClassifier lastCell 3).contextAt 0).map Context.state = some .draining := by decide

theorem witness_LowestMatch :
    LowestMatch (active.setFilter 1 ⟨true, 300, 300, 0, 0x0102, 0xFFFF⟩) 300 [1, 2] 1 ∧ NoMatch active 300 [1, 2] := by
  refine ⟨⟨?_, ?_⟩, ?_⟩
  · unfold FilterMatches; decide
  · unfold FilterMatches; decide
  · intro k hk
    have : ∀ j : Fin 4, (active.filter j).enabled = false := by decide
    have := this k
    rw [hk.1] at this
    cases this

theorem witness_MalformedMessages :
    (parseMessage [1] = none ∧ parseMessage [] = none) ∧ (heard 0 300 0).source = 0 ∧ (heard 63 300 0).source = 63 ∧
    (⟨12, 0, 0, 300, 0⟩ : Header).epoch = 0 ∧ IntactBody .claim ∧ IntactBody (.data 0 [1]) ∧
    ((0 : Octet).toNat = 0 ∧ 64 < (65 : Octet).toNat ∧ ([1] : List Octet).length ≠ (2 : Octet).toNat) ∧
    (State.reset.receiverOn = false ∧ active.receiverOn = true) := by unfold IntactBody; decide

theorem witness_SlotTimers :
    (spent.station.startup = some record ∧ (spent.slotAt (0 : Fin 32)).bind Slot.resendTimer = some 0 ∧
      (spent.slotAt (0 : Fin 32)).bind Slot.drainTimer = some 0) ∧
    ((withSlot active 31 { plainSlot 300 .claiming with window := some 0 }).slotAt (31 : Fin 32)).bind Slot.window =
      some 0 ∧
    ((holding.slotAt (0 : Fin 32)).bind Slot.window = none ∧
      (draining.slotAt (0 : Fin 32)).bind Slot.drainTimer = some 500) := by decide

/-- Channel 300 in the last context, in a state, its timers run out. -/
def late (st : ContextState) (used : Nat) : State :=
  withContext active 63
    { plainContext 300 st with attemptsUsed := some used, responseTimer := some 0, drainWait := some 0, owner := some 12 }

theorem witness_ContextTimers :
    (((late .joining 1).contextAt (63 : Fin 64)).bind Context.responseTimer = some 0 ∧
      ((late .joining 1).contextAt (63 : Fin 64)).bind Context.attemptsUsed = some 1 ∧ 1 < record.attemptLimit.toNat) ∧
    (((late .leaving 3).contextAt (63 : Fin 64)).bind Context.attemptsUsed = some 3 ∧
      ((late .leaving 3).contextAt (63 : Fin 64)).bind Context.owner = some 12 ∧ record.attemptLimit.toNat ≤ 3) ∧
    (((late .draining 0).contextAt (63 : Fin 64)).bind Context.drainWait = some 0 ∧
      ((late .draining 0).contextAt (63 : Fin 64)).map Context.state = some .draining) ∧
    ((joining.contextAt (0 : Fin 64)).bind Context.responseTimer = some 4 ∧
      (lastCell.contextAt (0 : Fin 64)).bind Context.drainWait = some 1000) := by decide

theorem witness_PresenceAndListen :
    active.station.startup = some record ∧ active.station.presence = some 100 ∧
    ({ active with station := { active.station with presence := some 0 } } : State).station.presence = some 0 ∧
    ((withRequests { inMode .listening with
        station := { (inMode .listening).station with listen := some 0 } } [⟨1, .attach, none⟩]).station.listen = some 0 ∧
      (withRequests (inMode .listening) [⟨1, .attach, none⟩]).port.requests = [⟨1, .attach, none⟩]) ∧
    active.station.mode ≠ .listening := by decide

theorem active_entry (c : Channel) : active.entry c = ChannelEntry.initial := rfl

theorem witness_Laws :
    (EventLaw active ∧ RequestLaw active ∧ ReplyLaw active ∧ SpanLaw active ∧ BufferLaw active ∧ TableLaw active) ∧
    LimitLaw active ∧ QueuedLaw active ∧ OwnershipLaw active ∧ SubscriptionLaw active ∧ WorkLaw active ∧ ModeLaw active ∧
    ResetLaw active ∧ step active = .next { active with station := { active.station with presence := some 99 } } := by
  refine ⟨by unfold EventLaw RequestLaw ReplyLaw SpanLaw BufferLaw TableLaw; decide, ?_, ?_, ?_, ?_, ?_, ?_,
    (fun h => by cases h), rfl⟩
  · intro r h
    cases h
    exact ⟨fun q => by cases q <;> decide, by decide⟩
  · intro c; rfl
  · refine ⟨?_, ?_, ?_, ?_⟩
    · intro i sl h; cases h
    · intro c h; rw [active_entry] at h; cases h
    · intro c _; rfl
    · intro c; rw [active_entry]; decide
  · refine ⟨?_, ?_, ?_, ?_⟩
    · intro i k h; cases h
    · intro c h; exact absurd rfl h
    · intro c _; rfl
    · intro c _; rfl
  · refine ⟨?_, ?_, ?_, ?_, ?_⟩
    · intro i sl w h; cases h
    · intro i k w h; cases h
    · intro r h; cases h
    · intro r h; cases h
    · intro r h; cases h
  · refine ⟨?_, ?_, ?_, ?_, ?_, ?_, ?_⟩
    · intro _ _; exact ⟨rfl, rfl⟩
    · intro h; cases h
    · intro reason h; cases h
    · intro h; cases h
    · intro r h; cases h
    · intro r h; cases h
    · decide

theorem draining_slot (i : Nat) (sl : Slot) (h : draining.slotAt i = some sl) :
    i = 0 ∧ some sl = draining.slotAt 0 := by
  have hm := FMap.mem_of_find? h
  have hb : draining.slots = [(0, _)] := rfl
  rw [hb] at hm
  simp only [List.mem_cons, Prod.mk.injEq, List.not_mem_nil, or_false] at hm
  obtain ⟨rfl, rfl⟩ := hm
  exact ⟨rfl, rfl⟩

theorem draining_entry (c : Channel) : c = 300 ∨ draining.entry c = ChannelEntry.initial := by
  by_cases h : c = 300
  · exact .inl h
  · refine .inr ?_
    have hc : draining.channels = [(300, draining.entry 300)] := by decide
    unfold State.entry at *
    rw [hc]
    have : ¬ (300 = c.toNat) := fun e => h (BitVec.eq_of_toNat_eq e.symm)
    simp [FMap.find?, this]

/-- Station 12 is the one subscriber, and the one awaited. -/
theorem one_member (n : Nat) (h : (0x1000 : StationSet).getLsbD n = true) : n = 12 := by
  have : n < 64 := by
    by_contra hn
    rw [BitVec.getLsbD_of_ge _ _ (by omega)] at h
    cases h
  have all : ∀ m : Fin 64, (0x1000 : StationSet).getLsbD m.val = true → m.val = 12 := by decide
  exact all ⟨n, this⟩ h

theorem witness_DrainLaw :
    TableLaw draining ∧ OwnershipLaw draining ∧ SubscriptionLaw draining ∧ DrainLaw draining := by
  refine ⟨by unfold TableLaw; decide, ⟨?_, ?_, ?_, ?_⟩, ⟨?_, ?_, ?_, ?_⟩, ⟨?_, ?_, ?_⟩⟩
  · intro i sl h
    obtain ⟨rfl, hs⟩ := draining_slot i sl h
    cases hs
    decide
  · intro c hc
    rcases draining_entry c with rfl | h
    · exact ⟨0, _, rfl, rfl⟩
    · rw [h] at hc; cases hc
  · intro c hc
    rcases draining_entry c with rfl | h
    · cases hc
    · rw [h]; rfl
  · intro c
    rcases draining_entry c with rfl | h
    · decide
    · rw [h]; decide
  · intro i k h; cases h
  · intro c hc
    rcases draining_entry c with rfl | h
    · exact absurd rfl hc
    · rw [h] at hc; exact absurd rfl hc
  · intro c _
    rcases draining_entry c with rfl | h
    · rfl
    · rw [h]; rfl
  · intro c _
    rcases draining_entry c with rfl | h
    · rfl
    · rw [h]; rfl
  · intro i sl h
    obtain ⟨rfl, hs⟩ := draining_slot i sl h
    cases hs
    refine ⟨?_, by decide, fun n hn => hn, fun _ => ⟨rfl, by decide⟩, by decide, by decide, fun h => absurd h (by decide), ?_⟩
    · intro n hn
      rw [one_member n hn]
      decide
    · intro _ _ h0
      exact absurd h0 (by decide)
  · intro c hc; cases hc
  · exact List.Pairwise.nil

theorem witness_Frames :
    (encodeRequest (.send 1 300 2 [1, 2]) = some [8, 1, 1, 44, 2, 1, 2] ∧ (Instr.send 1 300 2 [1, 2]).wellFormed = true) ∧
    3 < ([8, 1, 1, 44, 2, 1, 2] : List Octet).length := by decide

end Sys2Proof.Tests
end

/-! ## Requests and messages taken whole: SET_ACTION (O20), READ_CHANNEL (O11), the order of the blocks (O37). -/

namespace Sys2Proof.Machine

/-! ### Operands of the local port -/

/-- A channel parameter is refused exactly above 1023 (R171). -/
theorem isChannel_eq_true_iff (c : Half) : isChannel c = true ↔ c.toNat ≤ 1023 := by
  simp [isChannel]

theorem isChannel_eq_false_iff (c : Half) : isChannel c = false ↔ 1023 < c.toNat := by
  simp [isChannel]

/-- The group of SET_ACTION's octet is its low half (R171). -/
theorem actionGroup_eq (a : Octet) : actionGroup a = (a &&& 0x0F).toNat := by
  rw [actionGroup, BitVec.extractLsb'_toNat, BitVec.toNat_and]
  exact (Nat.and_two_pow_sub_one_eq_mod a.toNat 4).symm

/-- An answer with no other effect (R172). -/
theorem State.respond_onlyAnswers (s : State) (r : Result) (data : List Octet) :
    OnlyAnswers (r.code :: data) s (s.respond r data) := rfl

theorem execSetAction_open {s : State} (h : PortOpen s) (tag : Octet) (channel : Half) (actions : Octet) :
    exec (.setAction tag channel actions) s =
      .next (if isChannel channel = false then s.respond .badChannel []
        else if 3 < actionGroup actions then s.respond .badField []
        else
          (s.setEntry (toChannel channel)
            { s.entry (toChannel channel) with
              discard := actionDiscard actions, trap := actionTrap actions,
              group := Fin.ofNat 4 (actionGroup actions) }).respond .ok []) :=
  congrArg _ (State.transact_open h _)

/-- Settles O20: the two refusals in the model's order, and the entry written. -/
theorem setActionReplacesTheThreeActionsOfOneEntry :
    Obligations.SetActionReplacesTheThreeActionsOfOneEntry := by
  intro tag channel actions s hopen
  have hexec := execSetAction_open hopen tag channel actions
  rw [← actionGroup_eq] at *
  refine ⟨fun hc => ?_, fun hc hg => ?_, fun g hc hg => ?_⟩
  · rw [if_pos ((isChannel_eq_false_iff channel).mpr hc)] at hexec
    exact ⟨_, hexec, State.respond_onlyAnswers ..⟩
  · rw [if_neg (by simp [(isChannel_eq_true_iff channel).mpr hc]), if_pos hg] at hexec
    exact ⟨_, hexec, State.respond_onlyAnswers ..⟩
  · have hgroup : Fin.ofNat 4 (actionGroup actions) = g := by
      rw [hg]; exact Fin.ext (Nat.mod_eq_of_lt g.isLt)
    rw [if_neg (by simp [(isChannel_eq_true_iff channel).mpr hc]), if_neg (by omega), hgroup] at hexec
    refine ⟨_, hexec, ?_, rfl, ?_, ?_, rfl⟩
    · exact State.entry_setEntry_self ..
    · intro d hd
      exact State.entry_setEntry_other _ _ hd
    · intro p hp
      cases p <;> simp_all [Part.same]

/-! ### READ_CHANNEL -/

theorem execReadChannel_open {s : State} (h : PortOpen s) (tag : Octet) (channel : Half) :
    exec (.readChannel tag channel) s =
      .next (if isChannel channel then s.respond .ok (s.channelData (toChannel channel))
        else s.respond .badChannel []) :=
  congrArg _ (State.transact_open h _)

/-- A station as one octet is the station number widened (R174). -/
theorem stationOctet_eq (x : Station) : stationOctet x = x.setWidth 8 :=
  BitVec.eq_of_toNat_eq (by simp [stationOctet, octetOf])

/-- The presence octet of READ_CHANNEL, bit by bit (R174). -/
theorem presenceBit_eq (b : Bool) :
    presenceBit 0 b = (if b then 0x01 else 0) ∧ presenceBit 1 b = (if b then 0x02 else 0) ∧
      presenceBit 2 b = (if b then 0x04 else 0) ∧ presenceBit 3 b = (if b then 0x08 else 0) ∧
      presenceBit 4 b = (if b then 0x10 else 0) ∧ presenceBit 5 b = (if b then 0x20 else 0) ∧
      presenceBit 6 b = (if b then 0x40 else 0) ∧ presenceBit 7 b = (if b then 0x80 else 0) := by
  cases b <;> decide

/-- The context's fields READ_CHANNEL returns (R22). -/
theorem State.shownContext_fields (s : State) (c : Channel) :
    ((s.shownContext c).bind (fun k => k.owner), (s.shownContext c).bind (fun k => k.expected)) =
      if (s.entry c).subscription = .joined ∨ (s.entry c).subscription = .leaving ∨
          (s.entry c).subscription = .draining then
        match s.contextOf c with
        | some (_, k) => (k.owner, k.expected)
        | none => (none, none)
      else (none, none) := by
  unfold State.shownContext
  cases (s.entry c).subscription <;> cases s.contextOf c <;> simp

/-- The slot's fields READ_CHANNEL returns (R22). -/
theorem State.shownSlot_fields (s : State) (c : Channel) :
    ((s.shownSlot c).bind (fun sl => sl.transmitSequence), (s.shownSlot c).map (fun sl => sl.subscribers)) =
      if (s.entry c).view = .heldLocal ∨ (s.entry c).view = .releasing then
        match s.slotOf c with
        | some (_, sl) => (sl.transmitSequence, some sl.subscribers)
        | none => (none, none)
      else (none, none) := by
  unfold State.shownSlot
  cases (s.entry c).view <;> cases s.slotOf c <;> simp

/-- The awaited count READ_CHANNEL returns (R22, R45). -/
theorem State.shownAwaited_eq (s : State) (c : Channel) :
    s.shownAwaited c =
      if (s.entry c).view = .releasing ∧ s.markerWaits c = false then
        (s.slotOf c).map fun row => stationCount row.2.awaited
      else none := by
  unfold State.shownAwaited
  split
  · rename_i h
    unfold State.shownSlot
    rw [h.1]
    cases s.slotOf c <;> rfl
  · rfl

/-- Settles O11: the refusal, and the 19 octets item by item. -/
theorem readChannelReturnsTheEntryWithSlotAndContext :
    Obligations.ReadChannelReturnsTheEntryWithSlotAndContext := by
  intro tag channel s hopen
  have hexec := execReadChannel_open hopen tag channel
  refine ⟨fun hc => ?_, ?_⟩
  · rw [if_neg (by simp [(isChannel_eq_false_iff channel).mpr hc])] at hexec
    exact ⟨_, hexec, State.respond_onlyAnswers ..⟩
  · rintro hc e owner contextOwner expected sequence subscribers awaited rfl howner hcontext hslot hawaited
    rw [if_pos ((isChannel_eq_true_iff channel).mpr hc)] at hexec
    obtain ⟨rfl, rfl⟩ := Prod.mk.inj (hcontext.trans (State.shownContext_fields ..).symm)
    obtain ⟨rfl, rfl⟩ := Prod.mk.inj (hslot.trans (State.shownSlot_fields ..).symm)
    obtain rfl := hawaited.trans (State.shownAwaited_eq ..).symm
    obtain rfl : owner = (s.entry (toChannel channel)).shownOwner := howner
    refine ⟨_, hexec, ?_⟩
    unfold State.channelData ChannelEntry.actionsOctet numberOctets octetOf
    simp only [presenceBit_eq, stationOctet_eq]
    cases (s.entry (toChannel channel)).view <;> cases (s.entry (toChannel channel)).subscription <;>
      exact State.respond_onlyAnswers ..

/-! ### The order of the blocks -/

/-- The command of an intact message hands its body to the receiver: no check of R134 on the body fails. -/
theorem exec_messageCommand (h : Header) (b : Body) (s : State) (hb : IntactBody b) :
    exec (messageCommand h b) s = .next (s.receive h (some b)) := by
  cases b with
  | deny reason => cases reason <;> rfl
  | data q payload =>
    have hlength : (BitVec.ofNat 8 payload.length).toNat = payload.length :=
      Nat.mod_eq_of_lt (by have := hb.2; omega)
    have hbody : dataBody? q (BitVec.ofNat 8 payload.length) payload = some (.data q payload) := by
      unfold dataBody?
      rw [hlength, if_pos ⟨hb.1, hb.2, rfl⟩]
    show Host.Outcome.next (s.receive h (dataBody? q _ payload)) = _
    rw [hbody]
  | claim | hold | announce | join | admission | leave | left | drain | drained | release | beacon => rfl

theorem State.receive_off {s : State} (hoff : s.receiverOn = false) (h : Header) (b : Option Body) :
    s.receive h b = s := by
  unfold State.receive; rw [if_pos hoff]

/-- A peer's intact message passes the receiver's tests (R134, R135). -/
theorem State.receive_fromPeer {s : State} {h : Header} (hp : FromPeer s h) (b : Body) :
    s.receive h (some b) = s.hear h b := by
  obtain ⟨hon, hvalid, hsource⟩ := hp
  unfold State.receive
  simp [hon, hvalid, hsource]

/-- A message that is no BEACON goes through the three blocks in order (R9, R84, R135). -/
theorem State.hear_eq {b : Body} (hb : ∀ interval, b ≠ .beacon interval) (s : State) (h : Header) :
    s.hear h b = ((s.peerTakes h b).channelTakes h b).consume h b := by
  cases b with
  | beacon interval => exact absurd rfl (hb interval)
  | claim | hold | announce | join | admission | deny | leave | left | drain | drained | release | data => rfl

/-- Only the Peer Table's own step changes the Peer Table (R118). -/
theorem State.hear_peers (s : State) (h : Header) (b : Body) : (s.hear h b).peers = (s.peerTakes h b).peers := by
  by_cases hb : ∃ interval, b = .beacon interval
  · obtain ⟨interval, rfl⟩ := hb; rfl
  · rw [State.hear_eq (not_exists.mp hb)]; simp

/-- Settles O37: the receiver's tests, then the blocks in order, kind by kind. -/
theorem messagesGoToPeerTableChannelTableAndConsumer :
    Obligations.MessagesGoToPeerTableChannelTableAndConsumer := by
  intro h b s hb
  have hexec := exec_messageCommand h b s hb
  refine ⟨fun hoff => ?_, fun hp hkind => ?_, fun hp interval hkind => ?_, fun hp => ?_⟩
  · rw [hexec, State.receive_off hoff]
  · rw [hexec, State.receive_fromPeer hp, State.hear_eq hkind]
  · subst hkind
    rw [hexec, State.receive_fromPeer hp]; rfl
  · exact ⟨_, hexec.trans (congrArg _ (State.receive_fromPeer hp b)), State.hear_peers s h b⟩

end Sys2Proof.Machine

/-! ## The Channel Table and a message heard: a RELEASE (O46) and the owner-indicating kinds (O40). -/

namespace Sys2Proof.Machine

/-! ### What single operations leave alone -/

theorem State.setEntry_changesOnly (s : State) (c : Channel) (e : ChannelEntry) :
    ChangesOnly [.channels] s (s.setEntry c e) :=
  ⟨fun p hp => by cases p <;> simp_all [Part.same], rfl⟩

theorem State.notify_changesOnly (s : State) (n : Notification) : ChangesOnly [.events] s (s.notify n) :=
  ⟨fun p hp => by cases p <;> simp_all [Part.same], by simp⟩

theorem State.completeHeld_changesOnly (s : State) (tag : Option Octet) (e : Ending) :
    ChangesOnly [.station, .port, .events] s (s.completeHeld tag e) :=
  ⟨fun p hp => by cases p <;> simp_all [Part.same], by simp⟩

/-! ### A subscription that ends with a notification -/

/-- A context freed, a notification written and the held request completed: what the end of a subscription does (R62,
R81). -/
theorem State.endSubscription_spec (s : State) (i : Nat) (c : Channel) (n : Notification) (tag : Option Octet)
    (e : Ending) {t : State} (ht : t = ((s.freeContext i c).notify n).completeHeld tag e) :
    t.contextAt i = none ∧ OtherContexts i s t ∧ t.entry c = (s.entry c).unsubscribed ∧ OtherEntries c s t ∧
      Ended tag e (Notified n s) t ∧ WithdrawalTested s t ∧
      ChangesOnly [.channels, .contexts, .station, .port, .events] s t := by
  subst ht
  obtain ⟨hat, hothers, hentry, hentries, htested⟩ := State.freeContext_spec s i c
  have hcontexts : (((s.freeContext i c).notify n).completeHeld tag e).contexts = (s.freeContext i c).contexts := by
    simp
  have hchannels : (((s.freeContext i c).notify n).completeHeld tag e).channels = (s.freeContext i c).channels := by
    simp
  refine ⟨?_, ?_, ?_, ?_, ?_, ?_, ?_⟩
  · rw [State.contextAt_of_contexts hcontexts, hat]
  · intro j hj
    rw [State.contextAt_of_contexts hcontexts, hothers j hj]
  · rw [State.entry_of_channels hchannels, hentry]
  · intro d hd
    rw [State.entry_of_channels hchannels, hentries d hd]
  · refine (State.completeHeld_ended ..).of_same (by simp [Notified]) ?_
    rw [State.notify_eq]
    simp [Notified]
  · exact (htested.congr (by simp) (by simp) (by simp) (by simp)).completeHeld tag e
  · exact ⟨fun p hp => by cases p <;> simp_all [Part.same], by simp⟩

/-- A change of the Channel Table alone leaves what records and tests depend on. -/
theorem ChangesOnly.of_channels {s u : State} (h : ChangesOnly [.channels] s u) :
    u.station = s.station ∧ u.events = s.events ∧ u.port = s.port ∧ u.contexts = s.contexts ∧ u.slots = s.slots :=
  ⟨h.1 .station (by decide), h.1 .events (by decide), h.1 .port (by decide), h.1 .contexts (by decide),
    h.1 .slots (by decide)⟩

theorem Notified_of_same {s u : State} (n : Notification) (he : u.events = s.events) (hp : u.port = s.port) :
    (Notified n u).events = (Notified n s).events ∧ (Notified n u).port = (Notified n s).port := by
  unfold Notified; rw [he, hp]; exact ⟨rfl, rfl⟩

/-! ### A RELEASE heard -/

theorem exec_releaseMessage {s : State} {h : Header} (hp : FromPeer s h) :
    exec (.releaseMessage h) s =
      .next (((s.peerTakes h .release).channelTakes h .release).takeRelease h) := by
  rw [show Instr.releaseMessage h = messageCommand h .release from rfl, exec_messageCommand h .release s trivial,
    State.receive_fromPeer hp, State.hear_eq (by simp)]
  rfl

/-- A RELEASE frees the view its source is recorded to hold (R12). -/
theorem State.channelTakes_release (s : State) (h : Header) :
    (s.channelTakes h .release).entry h.channel =
        (if (s.entry h.channel).view = .heldRemote ∧ (s.entry h.channel).owner = some h.source then
          { s.entry h.channel with view := .free, owner := none, slotIndex := none }
        else s.entry h.channel) ∧
      OtherEntries h.channel s (s.channelTakes h .release) ∧
      ChangesOnly [.channels] s (s.channelTakes h .release) := by
  unfold State.channelTakes
  rw [if_neg (by simp [ownerIndicating])]
  simp only [true_and]
  split
  · exact ⟨State.entry_setEntry_self .., fun d hd => State.entry_setEntry_other _ _ hd,
      State.setEntry_changesOnly ..⟩
  · exact ⟨rfl, fun _ _ => rfl, ChangesOnly.refl ..⟩

/-- A RELEASE from a station that owns no subscription of this one ends nothing. -/
theorem State.takeRelease_other {s : State} {h : Header}
    (hk : ∀ i k, s.contextOf h.channel = some (i, k) → k.state = .joining ∨ k.owner ≠ some h.source) :
    s.takeRelease h = s := by
  unfold State.takeRelease
  cases hc : s.contextOf h.channel with
  | none => rfl
  | some row =>
    rcases hk row.1 row.2 hc with hj | ho
    · simp [hj]
    · simp [ho]

theorem State.takeRelease_owner {s : State} {h : Header} {i : Nat} {k : Context}
    (hc : s.contextOf h.channel = some (i, k)) (hs : k.state ≠ .joining) (ho : k.owner = some h.source) :
    s.takeRelease h =
      ((s.freeContext i k.channel).notify
        (.channelReleased k.channel (if k.drainedSent then .normal else .undrained) h.source)).completeHeld k.tag
        { result := .ok } := by
  unfold State.takeRelease
  rw [hc]
  exact if_pos ⟨hs, ho⟩

/-- Settles O46: the Channel Table's part, then the consumer's, by the context the entry names. -/
theorem releaseMessageFreesTheViewAndEndsTheSubscription :
    Obligations.ReleaseMessageFreesTheViewAndEndsTheSubscription := by
  rintro h s s₁ e hp rfl he
  have hexec := exec_releaseMessage hp
  obtain ⟨hentry, hentries, honly⟩ := State.channelTakes_release (s.peerTakes h .release) h
  generalize s.peerTakes h .release = s₁ at *
  generalize s₁.channelTakes h .release = u at *
  rw [← he] at hentry
  have hquiet : (∀ i k, u.contextOf h.channel = some (i, k) → k.state = .joining ∨ k.owner ≠ some h.source) →
      ∃ t, exec (.releaseMessage h) s = .next t ∧ t.entry h.channel = e ∧ OtherEntries h.channel s₁ t ∧
        ChangesOnly [.channels] s₁ t := fun hk => by
    rw [State.takeRelease_other hk] at hexec
    exact ⟨u, hexec, hentry, hentries, honly⟩
  refine ⟨fun hnone => hquiet fun i k hik => ?_, fun i k hindex hat hchannel => ?_⟩
  · rw [State.contextOf_eq_none (hentry ▸ hnone)] at hik
    cases hik
  · obtain ⟨hstation, hevents, hport, hcontexts, -⟩ := honly.of_channels
    have hof : u.contextOf h.channel = some (i, k) :=
      State.contextOf_eq_some.mpr ⟨hentry ▸ hindex, (State.contextAt_of_contexts hcontexts i).trans hat⟩
    refine ⟨fun hk => hquiet fun j k' hjk => ?_, fun hstate howner => ?_⟩
    · obtain ⟨rfl, rfl⟩ := Prod.mk.inj (Option.some.inj (hof.symm.trans hjk))
      exact hk
    · rw [State.takeRelease_owner hof hstate howner, hchannel] at hexec
      obtain ⟨hfreed, hcontexts', hentry', hentries', hended, htested, honly'⟩ :=
        State.endSubscription_spec u i h.channel _ k.tag { result := .ok } rfl
      obtain ⟨hnev, hnport⟩ := Notified_of_same
        (.channelReleased h.channel (if k.drainedSent then .normal else .undrained) h.source) hevents hport
      refine ⟨_, hexec, ?_, ?_, hfreed, ?_, hended.of_same hnport hnev, htested.of_station hstation.symm, ?_⟩
      · rw [hentry', hentry]; rfl
      · exact fun d hd => (hentries' d hd).trans (hentries d hd)
      · exact fun j hj => (hcontexts' j hj).trans (State.contextAt_of_contexts hcontexts j)
      · exact (honly.mono (by simp)).trans honly'

/-! ### Owner-indicating kinds -/

/-- What the Channel Table does with an owner-indicating message depends on channel and source alone (R10). -/
theorem State.channelTakes_indicating {b : Body} (hb : ownerIndicating b = true) (s : State) (h : Header) :
    s.channelTakes h b = s.ownerIndicated h.channel h.source := by
  unfold State.channelTakes; rw [if_pos hb]

/-- A message of a kind that indicates no owner, and is no RELEASE, leaves the Channel Table alone. -/
theorem State.channelTakes_other {b : Body} (hb : ownerIndicating b = false) (hr : b ≠ .release) (s : State)
    (h : Header) :
    s.channelTakes h b = s := by
  unfold State.channelTakes; simp [hb, hr]

/-- With the owner unchanged, or no established subscription, learning the owner ends nothing (R14). -/
theorem State.ownerChanges_none {s : State} {c : Channel} {x : Station}
    (hk : ∀ i k, s.contextOf c = some (i, k) → k.state = .joining ∨ k.owner = some x) : s.ownerChanges c x = s := by
  unfold State.ownerChanges
  cases hc : s.contextOf c with
  | none => rfl
  | some row =>
    rcases hk row.1 row.2 hc with hj | ho
    · simp [hj]
    · simp [ho]

theorem State.ownerChanges_orphan {s : State} {c : Channel} {x : Station} {i : Nat} {k : Context}
    (hc : s.contextOf c = some (i, k)) (hs : k.state ≠ .joining) (ho : k.owner ≠ some x) :
    s.ownerChanges c x = s.orphan i k .ownerChanged x := by
  unfold State.ownerChanges
  rw [hc]
  exact if_pos ⟨hs, ho⟩

/-- The owner of a channel that is not the station's own is learned (R11). -/
theorem State.ownerIndicated_learns {s : State} {c : Channel} (x : Station)
    (hv : (s.entry c).view = .free ∨ (s.entry c).view = .heldRemote) :
    s.ownerIndicated c x = (s.setEntry c ((s.entry c).toRemote x)).ownerChanges c x := by
  unfold State.ownerIndicated
  rcases hv with hv | hv <;> rw [hv]

theorem State.ownerIndicated_yields {s : State} {c : Channel} {i : Nat} {sl : Slot} (x : Station)
    (hv : (s.entry c).view = .claiming) (hs : s.slotOf c = some (i, sl)) :
    s.ownerIndicated c x = s.yieldTo i sl x := by
  unfold State.ownerIndicated; rw [hv, hs]

/-- Double ownership: the lower station number keeps the channel (R16). -/
theorem State.ownerIndicated_conflict {s : State} {c : Channel} {i : Nat} {sl : Slot} (x : Station)
    (hv : (s.entry c).view = .announcing ∨ (s.entry c).view = .heldLocal ∨ (s.entry c).view = .releasing)
    (hs : s.slotOf c = some (i, sl)) :
    s.ownerIndicated c x = if x < s.station.number then s.loseChannel i sl x else s.putSlot i sl.defend := by
  unfold State.ownerIndicated
  rcases hv with hv | hv | hv <;> rw [hv, hs]

/-! ### What a conflict purge leaves -/

theorem FifoPurged_eq (c : Channel) (fifo : List FifoEntry) : FifoPurged c fifo = fifo.filterMap (purgeEntry c) := rfl

theorem purgeEntry_data (c d : Channel) (q : Seq) (p : List Octet) (a : Nat) (w m : Bool) :
    purgeEntry c (.data d q p a w m) =
      if d = c then if w then some (.data d q p a w true) else none else some (.data d q p a w m) := rfl

theorem purgeEntry_marker (c d : Channel) : purgeEntry c (.marker d) = if d = c then none else some (.marker d) := rfl

/-- An entry that a purge leaves is of the kind and the channel it was, and no marker of the lost channel. -/
theorem purgeEntry_some {c : Channel} {e e' : FifoEntry} (h : purgeEntry c e = some e') :
    e'.isData = e.isData ∧ (∀ d, e' = .marker d ↔ e = .marker d) ∧ (∀ d, e'.isDataOf d = e.isDataOf d) ∧
      e ≠ .marker c := by
  cases e with
  | data d q p a w m =>
    rw [purgeEntry_data] at h
    split at h
    · split at h <;> simp only [Option.some.injEq, reduceCtorEq] at h
      subst h
      simp [FifoEntry.isData, FifoEntry.isDataOf]
    · simp only [Option.some.injEq] at h
      subst h
      simp
  | marker d =>
    rw [purgeEntry_marker] at h
    split at h
    · cases h
    · rename_i hd
      simp only [Option.some.injEq] at h
      subst h
      simpa using hd

/-- The purge removes the channel's marker and no other (R17). -/
theorem marker_mem_FifoPurged {c d : Channel} {fifo : List FifoEntry} :
    .marker d ∈ FifoPurged c fifo ↔ d ≠ c ∧ .marker d ∈ fifo := by
  rw [FifoPurged_eq, List.mem_filterMap]
  constructor
  · rintro ⟨e, he, hp⟩
    obtain ⟨-, hmarker, -, hne⟩ := purgeEntry_some hp
    obtain rfl := (hmarker d).mp rfl
    exact ⟨fun hd => hne (hd ▸ rfl), he⟩
  · rintro ⟨hd, hm⟩
    exact ⟨_, hm, if_neg hd⟩

/-- The purge adds no DATA entry. -/
theorem dataEntries_FifoPurged_le (c : Channel) (fifo : List FifoEntry) :
    dataEntries (FifoPurged c fifo) ≤ dataEntries fifo := by
  rw [FifoPurged_eq]
  induction fifo with
  | nil => exact Nat.le_refl _
  | cons e rest ih =>
    unfold dataEntries at *
    rw [List.filterMap_cons, List.countP_cons]
    cases he : purgeEntry c e with
    | none => exact ih.trans (Nat.le_add_right ..)
    | some e' =>
      rw [List.countP_cons, (purgeEntry_some he).1]
      exact Nat.add_le_add_right ih _

theorem mem_of_mem_headMarkers {d : Channel} {fifo : List FifoEntry} (h : d ∈ headMarkers fifo) : .marker d ∈ fifo := by
  induction fifo with
  | nil => cases h
  | cons e rest ih =>
    cases e with
    | data => cases h
    | marker c =>
      rcases List.mem_cons.mp h with rfl | h
      · exact List.mem_cons_self ..
      · exact List.mem_cons_of_mem _ (ih h)

theorem FMap.insert_ne_nil {α : Type} (m : FMap α) (k : Nat) (v : α) : ¬ FMap.insert m k v = [] := by
  cases m with
  | nil => simp [FMap.insert]
  | cons row rest => unfold FMap.insert; split <;> (try split) <;> simp

theorem State.slots_ne_nil {s : State} {i : Nat} {sl : Slot} (h : s.slotAt i = some sl) : s.slots ≠ [] := by
  intro hnil
  unfold State.slotAt at h
  rw [hnil] at h
  cases h

/-- A snapshot is taken by a slot that is there: whether anything remains is not changed. -/
theorem State.takeSnapshot_nothingRemains (s : State) (c : Channel) :
    (s.takeSnapshot c).nothingRemains = s.nothingRemains := by
  have hslots : (s.takeSnapshot c).slots.isEmpty = s.slots.isEmpty := by
    unfold State.takeSnapshot
    split
    · rename_i i sl hi
      have h1 := State.slots_ne_nil (State.slotOf_eq_some.mp hi).2
      rw [State.putSlot_slots, List.isEmpty_eq_false_iff.mpr h1,
        List.isEmpty_eq_false_iff.mpr (FMap.insert_ne_nil s.slots i (s.snapshot sl))]
    · rfl
  unfold State.nothingRemains
  rw [hslots]
  simp

theorem State.consumeMarkers_nothingRemains (s : State) : s.consumeMarkers.nothingRemains = s.nothingRemains := by
  unfold State.consumeMarkers
  rw [foldl_same State.nothingRemains State.takeSnapshot State.takeSnapshot_nothingRemains]
  rfl

theorem WithdrawalTested.of_remains {s t t' : State} (h : WithdrawalTested s t) (h0 : t'.station = t.station)
    (h1 : t'.nothingRemains = t.nothingRemains) : WithdrawalTested s t' := by
  unfold WithdrawalTested at *
  rw [h1, h0]
  exact h

/-! ### A channel lost -/

theorem State.record_freeSlot (s : State) (i : Nat) (c : Channel) (x : Option Station) :
    (s.freeSlot i c x).record = s.record := by
  obtain ⟨-, -, -, hstartup, -⟩ := StationController.of_settled (State.freeSlot_settled s i c x)
  unfold State.record; rw [hstartup]

theorem SnapshotOf_of_record {s u : State} (h : u.record = s.record) : SnapshotOf u = SnapshotOf s := by
  funext sl; unfold SnapshotOf; rw [h]

/-- The slot freed, FIFO and replies purged, and the markers that the purge brought to the FIFO's head consumed: what
the loss of a channel does before its records are written (R17, R45). -/
theorem State.giveUpChannel_spec (s : State) (i : Nat) (c : Channel) (x : Station) {u : State}
    (hu : u = (((s.freeSlot i c (some x)).purgeFifo c).purgeReplies c).consumeMarkers) :
    u.slotAt i = none ∧ u.entry c = (s.entry c).toRemote x ∧ OtherEntries c s u ∧
      u.store =
        { s.store with
          fifo := withoutHeadMarkers (FifoPurged c s.store.fifo)
          free := s.store.free + (dataEntries s.store.fifo - dataEntries (FifoPurged c s.store.fifo)) } ∧
      (∀ j, j ≠ i → Consumed (headMarkers (FifoPurged c s.store.fifo)) s j →
        u.slotAt j = (s.slotAt j).map (SnapshotOf s)) ∧
      (∀ j, j ≠ i → ¬ Consumed (headMarkers (FifoPurged c s.store.fifo)) s j → u.slotAt j = s.slotAt j) ∧
      u.span = { s.span with replies := RepliesPurged c s.span.replies } ∧
      u.port = s.port ∧ u.events = s.events ∧ WithdrawalTested s u ∧
      ChangesOnly [.slots, .channels, .store, .span, .station] s u := by
  obtain ⟨hat, hothers, hentry, hentries, htested⟩ := State.freeSlot_spec s i c (some x)
  generalize hv : ((s.freeSlot i c (some x)).purgeFifo c).purgeReplies c = v at hu
  have hfifo : v.store.fifo = FifoPurged c s.store.fifo := by
    subst hv; simp [State.purgeFifo, FifoPurged_eq]
  have hslots (j : Nat) : v.slotAt j = (s.freeSlot i c (some x)).slotAt j :=
    State.slotAt_of_slots (by subst hv; simp) j
  have hchannels (d : Channel) : v.entry d = (s.freeSlot i c (some x)).entry d :=
    State.entry_of_channels (by subst hv; simp) d
  have hsnapshot : SnapshotOf v = SnapshotOf s :=
    SnapshotOf_of_record ((congrArg (fun st : StationController => st.startup.getD Config.unloadedRecord)
      (by subst hv; simp)).trans (State.record_freeSlot s i c (some x)))
  have hconsumed (j : Nat) : Consumed (headMarkers v.store.fifo) v j ↔
      Consumed (headMarkers (FifoPurged c s.store.fifo)) s j := by
    unfold Consumed
    rw [hfifo]
    refine exists_congr fun d => and_congr_right fun hd => ?_
    have hdc := (marker_mem_FifoPurged.mp (mem_of_mem_headMarkers hd)).1
    rw [hchannels, hentries d hdc]
  have htake := State.consumeMarkers_slotAt v
  have hentry' (d : Channel) : u.entry d = v.entry d := State.entry_of_channels (by subst hu; simp) d
  subst hu
  refine ⟨?_, ?_, ?_, ?_, ?_, ?_, ?_, ?_, ?_, ?_, ?_⟩
  · by_cases hc : Consumed (headMarkers v.store.fifo) v i
    · rw [(htake i).1 hc, hslots, hat]; rfl
    · rw [(htake i).2 hc, hslots, hat]
  · rw [hentry', hchannels, hentry]
  · intro d hd
    rw [hentry', hchannels, hentries d hd]
  · rw [State.consumeMarkers_store, hfifo]
    subst hv
    simp [State.purgeFifo, FifoPurged_eq]
  · intro j hj hc
    rw [(htake j).1 ((hconsumed j).mpr hc), hslots, hothers j hj, hsnapshot]
  · intro j hj hc
    rw [(htake j).2 (mt (hconsumed j).mp hc), hslots, hothers j hj]
  · subst hv; simp [State.purgeReplies]; rfl
  · subst hv; simp
  · subst hv; simp
  · refine htested.of_remains (by subst hv; simp) ?_
    rw [State.consumeMarkers_nothingRemains]
    subst hv
    exact State.nothingRemains_of_same (by simp) (by simp) (by simp)
  · subst hv
    exact ⟨fun p hp => by cases p <;> simp_all [Part.same], by simp⟩

/-- The records of a lost channel: a claim completes LOST_CONTEST; a holding stores OWNERSHIP_LOST first (R17). -/
theorem State.loseChannel_eq (s : State) (i : Nat) (sl : Slot) (x : Station) {u : State}
    (hu : u = (((s.freeSlot i sl.channel (some x)).purgeFifo sl.channel).purgeReplies sl.channel).consumeMarkers) :
    (sl.phase = .announcing →
      s.loseChannel i sl x = u.completeHeld sl.tag { result := .lostContest, station := some x }) ∧
    (sl.phase ≠ .announcing →
      s.loseChannel i sl x =
        (u.notify (.ownershipLost sl.channel x)).completeHeld sl.tag
          { result := .ownershipLost, station := some x }) := by
  subst hu
  unfold State.loseChannel
  exact ⟨fun hp => if_pos hp, fun hp => if_neg hp⟩

/-- The station loses a channel (R16, R17, R45). -/
theorem State.loseChannel_spec (s : State) (i : Nat) (sl : Slot) (x : Station) {t : State}
    (ht : t = s.loseChannel i sl x) :
    t.slotAt i = none ∧ t.entry sl.channel = (s.entry sl.channel).toRemote x ∧ OtherEntries sl.channel s t ∧
      t.store =
        { s.store with
          fifo := withoutHeadMarkers (FifoPurged sl.channel s.store.fifo)
          free := s.store.free + (dataEntries s.store.fifo - dataEntries (FifoPurged sl.channel s.store.fifo)) } ∧
      t.store.free + dataEntries t.store.fifo = s.store.free + dataEntries s.store.fifo ∧
      (∀ j, j ≠ i → Consumed (headMarkers (FifoPurged sl.channel s.store.fifo)) s j →
        t.slotAt j = (s.slotAt j).map (SnapshotOf s)) ∧
      (∀ j, j ≠ i → ¬ Consumed (headMarkers (FifoPurged sl.channel s.store.fifo)) s j → t.slotAt j = s.slotAt j) ∧
      t.span = { s.span with replies := RepliesPurged sl.channel s.span.replies } ∧
      (sl.phase = .announcing → Ended sl.tag { result := .lostContest, station := some x } s t) ∧
      (sl.phase ≠ .announcing →
        Ended sl.tag { result := .ownershipLost, station := some x } (Notified (.ownershipLost sl.channel x) s) t) ∧
      WithdrawalTested s t ∧ ChangesOnly [.slots, .channels, .store, .span, .port, .events, .station] s t := by
  generalize hu :
    (((s.freeSlot i sl.channel (some x)).purgeFifo sl.channel).purgeReplies sl.channel).consumeMarkers = u
  obtain ⟨hat, hentry, hentries, hstore, hsnap, hkeep, hspan, hport, hevents, htested, honly⟩ :=
    State.giveUpChannel_spec s i sl.channel x hu.symm
  obtain ⟨hclaim, hheld⟩ := State.loseChannel_eq s i sl x hu.symm
  obtain ⟨v, tag, e, htv, hv⟩ : ∃ v tag e, t = v.completeHeld tag e ∧
      (v = u ∨ v = u.notify (.ownershipLost sl.channel x)) := by
    by_cases hp : sl.phase = .announcing
    · exact ⟨u, sl.tag, _, ht.trans (hclaim hp), .inl rfl⟩
    · exact ⟨_, sl.tag, _, ht.trans (hheld hp), .inr rfl⟩
  have hchannels : t.channels = u.channels := by rcases hv with rfl | rfl <;> simp [htv]
  have hslots : t.slots = u.slots := by rcases hv with rfl | rfl <;> simp [htv]
  have hstore' : t.store = u.store := by rcases hv with rfl | rfl <;> simp [htv]
  have hspan' : t.span = u.span := by rcases hv with rfl | rfl <;> simp [htv]
  refine ⟨?_, ?_, ?_, ?_, ?_, ?_, ?_, ?_, ?_, ?_, ?_, ?_⟩
  · rw [State.slotAt_of_slots hslots, hat]
  · rw [State.entry_of_channels hchannels, hentry]
  · exact fun d hd => (State.entry_of_channels hchannels d).trans (hentries d hd)
  · rw [hstore', hstore]
  · have hle := dataEntries_FifoPurged_le sl.channel s.store.fifo
    rw [hstore', hstore]
    simp only [dataEntries_withoutHeadMarkers]
    omega
  · exact fun j hj hc => (State.slotAt_of_slots hslots j).trans (hsnap j hj hc)
  · exact fun j hj hc => (State.slotAt_of_slots hslots j).trans (hkeep j hj hc)
  · rw [hspan', hspan]
  · intro hp
    rw [ht, hclaim hp]
    exact (State.completeHeld_ended ..).of_same hport hevents
  · intro hp
    rw [ht, hheld hp]
    obtain ⟨hnev, hnport⟩ := Notified_of_same (.ownershipLost sl.channel x) hevents hport
    rw [State.notify_eq]
    exact (State.completeHeld_ended ..).of_same hnport hnev
  · rw [htv]
    refine WithdrawalTested.completeHeld (htested.of_remains ?_ ?_) ..
    · rcases hv with rfl | rfl <;> simp
    · rcases hv with rfl | rfl
      · rfl
      · exact State.nothingRemains_of_same (by simp) (by simp) (by simp)
  · have hcompleted : ChangesOnly [.slots, .channels, .store, .span, .port, .events, .station] v t :=
      htv ▸ (State.completeHeld_changesOnly v tag e).mono (by simp)
    rcases hv with rfl | rfl
    · exact (honly.mono (by simp)).trans hcompleted
    · exact (honly.mono (by simp)).trans (((State.notify_changesOnly ..).mono (by simp)).trans hcompleted)

/-! ### The three answers of the Channel Table -/

/-- A holder heard of for the first time, or again: the view alone changes (R11). -/
theorem State.ownerIndicated_teaches {s : State} {c : Channel} {x : Station}
    (hv : (s.entry c).view = .free ∨ (s.entry c).view = .heldRemote)
    (hk : ∀ i k, (s.entry c).contextIndex = some i → s.contextAt i = some k → k.state = .joining ∨ k.owner = some x) :
    (s.ownerIndicated c x).entry c = (s.entry c).toRemote x ∧ OtherEntries c s (s.ownerIndicated c x) ∧
      ChangesOnly [.channels] s (s.ownerIndicated c x) := by
  rw [State.ownerIndicated_learns x hv, State.ownerChanges_none]
  · exact ⟨State.entry_setEntry_self .., fun d hd => State.entry_setEntry_other _ _ hd,
      State.setEntry_changesOnly ..⟩
  · intro i k hik
    obtain ⟨hindex, hat⟩ := State.contextOf_eq_some.mp hik
    rw [State.entry_setEntry_self] at hindex
    exact hk i k hindex hat

/-- Another holder than the subscription's owner: the subscription is orphaned (R14). -/
theorem State.ownerIndicated_orphans {s : State} {c : Channel} {x : Station} {i : Nat} {k : Context}
    (hv : (s.entry c).view = .free ∨ (s.entry c).view = .heldRemote) (hindex : (s.entry c).contextIndex = some i)
    (hat : s.contextAt i = some k) (hchannel : k.channel = c) (hs : k.state ≠ .joining) (ho : k.owner ≠ some x)
    {t : State} (ht : t = s.ownerIndicated c x) :
    t.entry c = ((s.entry c).toRemote x).unsubscribed ∧ OtherEntries c s t ∧ t.contextAt i = none ∧
      OtherContexts i s t ∧
      Ended k.tag { result := .ownerLost, station := some x } (Notified (.channelOrphaned c .ownerChanged x) s) t ∧
      WithdrawalTested s t ∧ ChangesOnly [.channels, .contexts, .station, .port, .events] s t := by
  subst hchannel
  generalize hu : s.setEntry k.channel ((s.entry k.channel).toRemote x) = u
  have hof : u.contextOf k.channel = some (i, k) := by
    subst hu
    exact State.contextOf_eq_some.mpr ⟨(congrArg _ (State.entry_setEntry_self ..)).trans hindex, hat⟩
  rw [State.ownerIndicated_learns x hv, hu, State.ownerChanges_orphan hof hs ho] at ht
  obtain ⟨hfreed, hcontexts, hentry, hentries, hended, htested, honly⟩ :=
    State.endSubscription_spec u i k.channel _ k.tag _ ht
  subst hu
  obtain ⟨hnev, hnport⟩ := Notified_of_same (s := s)
    (u := s.setEntry k.channel ((s.entry k.channel).toRemote x)) (.channelOrphaned k.channel .ownerChanged x) rfl rfl
  refine ⟨?_, ?_, hfreed, hcontexts, hended.of_same hnport hnev, htested.of_station rfl, ?_⟩
  · rw [hentry, State.entry_setEntry_self]
  · exact fun d hd => (hentries d hd).trans (State.entry_setEntry_other _ _ hd)
  · exact ((State.setEntry_changesOnly ..).mono (by simp)).trans honly

/-- A CLAIMING slot yields (R30). -/
theorem State.yieldTo_spec (s : State) (i : Nat) (sl : Slot) (x : Station) :
    (s.yieldTo i sl x).slotAt i = none ∧ OtherSlots i s (s.yieldTo i sl x) ∧
      (s.yieldTo i sl x).entry sl.channel = (s.entry sl.channel).toRemote x ∧
      OtherEntries sl.channel s (s.yieldTo i sl x) ∧
      Ended sl.tag { result := .heldByOther, station := some x } s (s.yieldTo i sl x) ∧
      WithdrawalTested s (s.yieldTo i sl x) ∧
      ChangesOnly [.slots, .channels, .port, .events, .station] s (s.yieldTo i sl x) := by
  obtain ⟨hat, hothers, hentry, hentries, htested⟩ := State.freeSlot_spec s i sl.channel (some x)
  have hslots : (s.yieldTo i sl x).slots = (s.freeSlot i sl.channel (some x)).slots := by simp [State.yieldTo]
  have hchannels : (s.yieldTo i sl x).channels = (s.freeSlot i sl.channel (some x)).channels := by
    simp [State.yieldTo]
  refine ⟨?_, ?_, ?_, ?_, ?_, htested.completeHeld .., ?_⟩
  · rw [State.slotAt_of_slots hslots, hat]
  · exact fun j hj => (State.slotAt_of_slots hslots j).trans (hothers j hj)
  · rw [State.entry_of_channels hchannels, hentry]
  · exact fun d hd => (State.entry_of_channels hchannels d).trans (hentries d hd)
  · exact (State.completeHeld_ended ..).of_same (by simp) (by simp)
  · exact ⟨fun p hp => by cases p <;> simp_all [Part.same], by simp⟩

/-- A slot that keeps its channel owes ANNOUNCE if it owed nothing (R18). -/
theorem State.putSlot_defend_spec (s : State) (i : Nat) (sl : Slot) :
    OtherSlots i s (s.putSlot i sl.defend) ∧ ChangesOnly [.slots] s (s.putSlot i sl.defend) ∧
      (s.putSlot i sl.defend).slotAt i =
        some (if sl.phase ≠ .announcing ∧ sl.owed = none then { sl with owed := some ⟨.announce, 0, false⟩ }
          else sl) := by
  have hslot := State.slotAt_of_insert (s := s) (State.putSlot_slots s i sl.defend)
  refine ⟨fun j hj => (hslot j).trans (if_neg hj), ⟨fun p hp => ?_, rfl⟩, (hslot i).trans (if_pos rfl)⟩
  cases p <;> simp_all [Part.same]

theorem exec_holdMessage {s : State} {h : Header} (hp : FromPeer s h) :
    exec (.holdMessage h) s = .next ((s.peerTakes h .hold).channelTakes h .hold) := by
  rw [show Instr.holdMessage h = messageCommand h .hold from rfl, exec_messageCommand h .hold s trivial,
    State.receive_fromPeer hp]
  rfl

theorem exec_announceMessage {s : State} {h : Header} (hp : FromPeer s h) :
    exec (.announceMessage h) s = .next ((s.peerTakes h .announce).channelTakes h .announce) := by
  rw [show Instr.announceMessage h = messageCommand h .announce from rfl, exec_messageCommand h .announce s trivial,
    State.receive_fromPeer hp]
  rfl

/-- Settles O40: by the view of the channel, one law for each answer of the Channel Table. -/
theorem ownerIndicatingMessagesTeachTheOwnerOrMeetTheConflictRule :
    Obligations.OwnerIndicatingMessagesTeachTheOwnerOrMeetTheConflictRule := by
  refine ⟨?_, ?_⟩
  · rintro h b s s₁ t e hp hkind rfl rfl rfl
    have hindicating : ownerIndicating b = true := by
      rcases hkind with rfl | rfl | ⟨next, rfl⟩ | rfl | ⟨q, payload, rfl⟩ | rfl <;> rfl
    refine ⟨⟨?_, ?_⟩, ?_, ?_⟩
    · rintro rfl; exact exec_holdMessage hp
    · rintro rfl; exact exec_announceMessage hp
    all_goals
      rw [State.channelTakes_indicating hindicating]
      generalize s.peerTakes h b = u
    · intro hview
      exact ⟨State.ownerIndicated_teaches hview,
        fun i k hindex hat hchannel hs ho => State.ownerIndicated_orphans hview hindex hat hchannel hs ho rfl⟩
    · intro i sl hindex hat hchannel
      have hof := State.slotOf_eq_some.mpr ⟨hindex, hat⟩
      refine ⟨fun hview => ?_, fun hview => ⟨fun hlow => ?_, fun hhigh => ?_⟩⟩
      · rw [State.ownerIndicated_yields _ hview hof, ← hchannel]
        exact State.yieldTo_spec ..
      · rw [State.ownerIndicated_conflict _ hview hof, if_pos (BitVec.lt_def.mpr hlow), ← hchannel]
        exact State.loseChannel_spec u i sl h.source rfl
      · rw [State.ownerIndicated_conflict _ hview hof, if_neg (by rw [BitVec.lt_def]; omega)]
        exact State.putSlot_defend_spec ..
  · rintro h b s (rfl | rfl | rfl | rfl | rfl | rfl) <;> exact State.channelTakes_other rfl (by simp) s h

end Sys2Proof.Machine

/-! ## Tables, slots, contexts, requests and markers in agreement: the invariant behind O54 and O55.

`Coherent w d loose s` is one invariant for both obligations: the three table laws always, the agreement of requests and
work where `w` asks for it, the drain law where `d` does. Every step keeps it for all `w` and `d`. In the middle of a
step a request may stand whose work has just ended, or is just about to begin: `loose` is its tag. -/

namespace Sys2Proof.Machine

/-! ### Requests and the work they name -/

/-- A slot or a context holds a tag: the kind of request its state serves, and its channel. -/
def State.Holds (s : State) (v : Octet) (kind : Option RequestKind) (c : Channel) : Prop :=
  (∃ i sl, s.slotAt i = some sl ∧ sl.tag = some v ∧ sl.phase.request = kind ∧ sl.channel = c) ∨
    ∃ i k, s.contextAt i = some k ∧ k.tag = some v ∧ k.state.request = kind ∧ k.channel = c

/-- The request is of a station kind, which no slot and no context serves (R175). -/
def RequestKind.ofStation (kind : RequestKind) : Prop := kind = .attach ∨ kind = .withdraw

/-- Requests and the work H that holds their tags agree, but for the request with the tag `loose`, whose work is not
there (R175, R177). -/
structure Matched (H : Octet → Option RequestKind → Channel → Prop) (requests : List PendingRequest)
    (loose : Option Octet) : Prop where
  nodup : (requests.map (fun r => r.tag)).Nodup
  held : ∀ v kind c, H v kind c → some v ≠ loose ∧ ∃ k, kind = some k ∧ ⟨v, k, some c⟩ ∈ requests
  served : ∀ r ∈ requests, ¬ r.kind.ofStation → some r.tag ≠ loose → ∃ kind c, H r.tag kind c ∧ r.channel = some c
  station : ∀ r ∈ requests, r.kind.ofStation → r.channel = none

section
variable {H H' : Octet → Option RequestKind → Channel → Prop} {requests : List PendingRequest} {loose : Option Octet}

/-- No tag twice: a tag names one request (R175). -/
theorem eq_of_tag_eq (hn : (requests.map (fun r => r.tag)).Nodup) {a b : PendingRequest} (ha : a ∈ requests)
    (hb : b ∈ requests) (h : a.tag = b.tag) : a = b :=
  List.inj_on_of_nodup_map hn ha hb h

theorem mem_eraseP_tag (hn : (requests.map (fun r => r.tag)).Nodup) {v : Octet} {r : PendingRequest} :
    r ∈ requests.eraseP (fun q => q.tag = v) ↔ r ∈ requests ∧ r.tag ≠ v := by
  induction requests with
  | nil => simp
  | cons q rest ih =>
    rw [List.map_cons, List.nodup_cons] at hn
    have hfresh : ∀ r ∈ rest, r.tag ≠ q.tag := fun r hr he => hn.1 (List.mem_map.mpr ⟨r, hr, he⟩)
    by_cases hq : q.tag = v
    · rw [List.eraseP_cons_of_pos (by simpa using hq), List.mem_cons]
      constructor
      · exact fun hr => ⟨.inr hr, hq ▸ hfresh r hr⟩
      · rintro ⟨rfl | hr, hne⟩
        · exact absurd hq hne
        · exact hr
    · rw [List.eraseP_cons_of_neg (by simpa using hq), List.mem_cons, List.mem_cons, ih hn.2]
      constructor
      · rintro (rfl | ⟨hr, hne⟩)
        · exact ⟨.inl rfl, hq⟩
        · exact ⟨.inr hr, hne⟩
      · rintro ⟨rfl | hr, hne⟩
        · exact .inl rfl
        · exact .inr ⟨hr, hne⟩

theorem Matched.congr (h : Matched H requests loose) (hH : ∀ v kind c, H' v kind c ↔ H v kind c) :
    Matched H' requests loose where
  nodup := h.nodup
  held v kind c hv := h.held v kind c ((hH v kind c).mp hv)
  served r hr hk hl := by
    obtain ⟨kind, c, hv, hc⟩ := h.served r hr hk hl
    exact ⟨kind, c, (hH ..).mpr hv, hc⟩
  station := h.station

/-- The work that held a tag ends: its request, if it held one, is the loose one. -/
theorem Matched.drop (h : Matched H requests none) {tag : Option Octet}
    (hH : ∀ v kind c, H' v kind c ↔ H v kind c ∧ some v ≠ tag) : Matched H' requests tag where
  nodup := h.nodup
  held v kind c hv := by
    obtain ⟨hv, hne⟩ := (hH v kind c).mp hv
    exact ⟨hne, (h.held v kind c hv).2⟩
  served r hr hk hl := by
    obtain ⟨kind, c, hv, hc⟩ := h.served r hr hk (by simp)
    exact ⟨kind, c, (hH ..).mpr ⟨hv, hl⟩, hc⟩
  station := h.station

/-- Work begins for the loose request. -/
theorem Matched.take {v : Octet} {kind : RequestKind} {c : Channel} (h : Matched H requests (some v))
    (hr : ⟨v, kind, some c⟩ ∈ requests)
    (hH : ∀ v' kind' c', H' v' kind' c' ↔ H v' kind' c' ∨ (v' = v ∧ kind' = some kind ∧ c' = c)) :
    Matched H' requests none where
  nodup := h.nodup
  held v' kind' c' hv := by
    refine ⟨by simp, ?_⟩
    rcases (hH ..).mp hv with hv | ⟨rfl, rfl, rfl⟩
    · exact (h.held _ _ _ hv).2
    · exact ⟨kind, rfl, hr⟩
  served r hr' hk _ := by
    by_cases hv : r.tag = v
    · obtain rfl := eq_of_tag_eq h.nodup hr' hr hv
      exact ⟨some kind, c, (hH ..).mpr (.inr ⟨rfl, rfl, rfl⟩), rfl⟩
    · obtain ⟨kind', c', hv', hc⟩ := h.served r hr' hk (by simpa using hv)
      exact ⟨kind', c', (hH ..).mpr (.inl hv'), hc⟩
  station := h.station

/-- The loose request completes (R177). -/
theorem Matched.complete {v : Octet} (h : Matched H requests (some v)) :
    Matched H (requests.eraseP (fun q => q.tag = v)) none where
  nodup := ((List.eraseP_sublist ..).map _).nodup h.nodup
  held v' kind c hv := by
    obtain ⟨hne, k, hk, hr⟩ := h.held v' kind c hv
    exact ⟨by simp, k, hk, (mem_eraseP_tag h.nodup).mpr ⟨hr, by simpa using hne⟩⟩
  served r hr hk _ := by
    obtain ⟨hr, hne⟩ := (mem_eraseP_tag h.nodup).mp hr
    exact h.served r hr hk (by simpa using hne)
  station r hr := h.station r ((mem_eraseP_tag h.nodup).mp hr).1

/-- A request with no entry in the table leaves nothing loose. -/
theorem Matched.of_absent {v : Octet} (h : Matched H requests (some v)) (hv : ∀ r ∈ requests, r.tag ≠ v) :
    Matched H requests none where
  nodup := h.nodup
  held v' kind c hv' := ⟨by simp, (h.held v' kind c hv').2⟩
  served r hr hk _ := h.served r hr hk (by simpa using hv r hr)
  station := h.station

theorem nodup_concat {v : Octet} {kind : RequestKind} {c : Option Channel}
    (hn : (requests.map (fun r => r.tag)).Nodup) (hv : ∀ r ∈ requests, r.tag ≠ v) :
    ((requests ++ [(⟨v, kind, c⟩ : PendingRequest)]).map (fun r => r.tag)).Nodup := by
  rw [List.map_append, List.nodup_append]
  refine ⟨hn, List.nodup_singleton _, ?_⟩
  rintro a ha b hb rfl
  obtain ⟨r, hr, rfl⟩ := List.mem_map.mp ha
  simp only [List.map_cons, List.map_nil, List.mem_singleton] at hb
  exact hv r hr hb

/-- A request of a channel is entered: it is loose until its work begins. -/
theorem Matched.enterWork {v : Octet} {kind : RequestKind} {c : Option Channel} (h : Matched H requests none)
    (hv : ∀ r ∈ requests, r.tag ≠ v) (hk : ¬ kind.ofStation) :
    Matched H (requests ++ [⟨v, kind, c⟩]) (some v) where
  nodup := nodup_concat h.nodup hv
  held v' kind' c' hv' := by
    obtain ⟨-, k, hk, hr⟩ := h.held v' kind' c' hv'
    exact ⟨by simpa using hv _ hr, k, hk, List.mem_append_left _ hr⟩
  served r hr hkind hl := by
    rcases List.mem_append.mp hr with hr | hr
    · exact h.served r hr hkind (by simp)
    · rw [List.mem_singleton.mp hr] at hl
      exact absurd rfl hl
  station r hr hkind := by
    rcases List.mem_append.mp hr with hr | hr
    · exact h.station r hr hkind
    · rw [List.mem_singleton.mp hr] at hkind
      exact absurd hkind hk

/-- A request of a station kind is entered: no work goes with it. -/
theorem Matched.enterStation {v : Octet} {kind : RequestKind} (h : Matched H requests none)
    (hv : ∀ r ∈ requests, r.tag ≠ v) (hk : kind.ofStation) : Matched H (requests ++ [⟨v, kind, none⟩]) none where
  nodup := nodup_concat h.nodup hv
  held v' kind' c' hv' := by
    obtain ⟨-, k, hk, hr⟩ := h.held v' kind' c' hv'
    exact ⟨by simp, k, hk, List.mem_append_left _ hr⟩
  served r hr hkind _ := by
    rcases List.mem_append.mp hr with hr | hr
    · exact h.served r hr hkind (by simp)
    · rw [List.mem_singleton.mp hr] at hkind
      exact absurd hk hkind
  station r hr hkind := by
    rcases List.mem_append.mp hr with hr | hr
    · exact h.station r hr hkind
    · rw [List.mem_singleton.mp hr]

/-- A request of a station kind may complete: no work holds its tag. -/
theorem Matched.loosen {r : PendingRequest} (h : Matched H requests none) (hr : r ∈ requests) (hk : r.kind.ofStation) :
    Matched H requests (some r.tag) where
  nodup := h.nodup
  held v kind c hv := by
    obtain ⟨-, k, hkind, hmem⟩ := h.held v kind c hv
    refine ⟨fun he => ?_, k, hkind, hmem⟩
    have hsame := eq_of_tag_eq h.nodup hmem hr (Option.some.inj he)
    have hnone := h.station r hr hk
    rw [← hsame] at hnone
    cases hnone
  served r' hr' hkind _ := h.served r' hr' hkind (by simp)
  station := h.station

end

/-- The kinds of request that slots serve, contexts serve, and neither (R175). -/
theorem Phase.request_cases {p : Phase} {k : RequestKind} (h : p.request = some k) : k = .claim ∨ k = .release := by
  cases p <;> simp_all [Phase.request]

theorem ContextState.request_cases {p : ContextState} {k : RequestKind} (h : p.request = some k) :
    k = .join ∨ k = .leave := by
  cases p <;> simp_all [ContextState.request]

/-- With no tag twice, agreement is the manual's law of requests and work. -/
theorem matched_iff_workLaw {s : State} (hn : (s.port.requests.map (fun r => r.tag)).Nodup) :
    Matched s.Holds s.port.requests none ↔ WorkLaw s := by
  constructor
  · intro h
    have hserved : ∀ r ∈ s.port.requests, ¬ r.kind.ofStation →
        ∃ kind c, s.Holds r.tag (some kind) c ∧ r.channel = some c ∧ r.kind = kind := fun r hr hk => by
      obtain ⟨kind, c, hv, hc⟩ := h.served r hr hk (by simp)
      obtain ⟨-, k, rfl, hmem⟩ := h.held _ _ _ hv
      exact ⟨k, c, hv, hc, congrArg (fun r => r.kind) (eq_of_tag_eq hn hr hmem rfl)⟩
    refine ⟨?_, ?_, ?_, ?_, h.station⟩
    · intro i sl v hs ht
      exact (h.held v _ _ (.inl ⟨i, sl, hs, ht, rfl, rfl⟩)).2
    · intro i k v hs ht
      exact (h.held v _ _ (.inr ⟨i, k, hs, ht, rfl, rfl⟩)).2
    · intro r hr hk
      obtain ⟨kind, c, hv, hc, rfl⟩ := hserved r hr (by rcases hk with hk | hk <;> simp [RequestKind.ofStation, hk])
      rcases hv with ⟨i, sl, hs, ht, -, rfl⟩ | ⟨i, k, -, -, hkind, -⟩
      · exact ⟨i, sl, hs, ht, hc⟩
      · rcases ContextState.request_cases hkind with hj | hj <;> simp [hj] at hk
    · intro r hr hk
      obtain ⟨kind, c, hv, hc, rfl⟩ := hserved r hr (by rcases hk with hk | hk <;> simp [RequestKind.ofStation, hk])
      rcases hv with ⟨i, sl, -, -, hkind, -⟩ | ⟨i, k, hs, ht, -, rfl⟩
      · rcases Phase.request_cases hkind with hj | hj <;> simp [hj] at hk
      · exact ⟨i, k, hs, ht, hc⟩
  · rintro ⟨hslots, hcontexts, hslot, hcontext, hstation⟩
    refine ⟨hn, ?_, ?_, hstation⟩
    · rintro v kind c (⟨i, sl, hs, ht, rfl, rfl⟩ | ⟨i, k, hs, ht, rfl, rfl⟩)
      · exact ⟨by simp, hslots i sl v hs ht⟩
      · exact ⟨by simp, hcontexts i k v hs ht⟩
    · intro r hr hk _
      by_cases hs : r.kind = .claim ∨ r.kind = .release
      · obtain ⟨i, sl, hat, ht, hc⟩ := hslot r hr hs
        exact ⟨_, _, .inl ⟨i, sl, hat, ht, rfl, rfl⟩, hc⟩
      · have hj : r.kind = .join ∨ r.kind = .leave := by
          unfold RequestKind.ofStation at hk
          cases hkind : r.kind <;> simp_all
        obtain ⟨i, k, hat, ht, hc⟩ := hcontext r hr hj
        exact ⟨_, _, .inr ⟨i, k, hat, ht, rfl, rfl⟩, hc⟩

/-! ### One slot and the drain markers -/

/-- What the drain law says of one slot, over the own number and the transmit FIFO (R18, R23, R43 to R45). -/
structure SlotSound (number : Station) (fifo : List FifoEntry) (sl : Slot) : Prop where
  members : ∀ n, sl.subscribers.getLsbD n = true → 1 ≤ n ∧ n ≤ 62 ∧ n ≠ number.toNat
  unheld : sl.phase = .claiming ∨ sl.phase = .announcing → sl.subscribers = 0
  subset : ∀ n, sl.awaited.getLsbD n = true → sl.subscribers.getLsbD n = true
  awaiting : sl.awaited ≠ 0 → sl.phase = .releasing ∧ .marker sl.channel ∉ fifo
  drainTimer : sl.drainTimer ≠ none ↔ sl.awaited ≠ 0
  resendTimer : sl.resendTimer ≠ none ↔ sl.awaited ≠ 0
  held : sl.phase = .held → ∀ o, sl.owed = some o → o.kind = .announce
  closing : sl.phase = .releasing → .marker sl.channel ∉ fifo → sl.awaited = 0 →
    ∃ o, sl.owed = some o ∧ o.kind = .release
  marked : .marker sl.channel ∈ fifo → sl.phase = .releasing ∧ ∀ o, sl.owed = some o → o.kind = .announce

/-- Behind a marker stands no second marker and no DATA entry of its channel (R43, R107). -/
def MarkersOrdered (fifo : List FifoEntry) : Prop :=
  fifo.Pairwise (fun a b => ∀ c, a = .marker c → b ≠ .marker c ∧ b.isDataOf c = false)

/-- The drain law, slot by slot. -/
structure Drained (s : State) : Prop where
  slots : ∀ i sl, s.slotAt i = some sl → SlotSound s.station.number s.store.fifo sl
  markers : ∀ c, .marker c ∈ s.store.fifo → ∃ i sl, s.slotAt i = some sl ∧ sl.channel = c
  ordered : MarkersOrdered s.store.fifo

/-- Where each channel has one slot, the drain law slot by slot is the manual's. -/
theorem drained_iff_drainLaw {s : State} (ho : OwnershipLaw s) : Drained s ↔ DrainLaw s := by
  constructor
  · intro h
    refine ⟨fun i sl hs => ?_, fun c hc => ?_, h.ordered⟩
    · have hsl := h.slots i sl hs
      exact ⟨hsl.members, hsl.unheld, hsl.subset, hsl.awaiting, hsl.drainTimer, hsl.resendTimer, hsl.held, hsl.closing⟩
    · obtain ⟨i, sl, hs, rfl⟩ := h.markers c hc
      exact ⟨i, sl, hs, rfl, (h.slots i sl hs).marked hc⟩
  · rintro ⟨hslots, hmarkers, hordered⟩
    refine ⟨fun i sl hs => ?_, fun c hc => ?_, hordered⟩
    · obtain ⟨h1, h2, h3, h4, h5, h6, h7, h8⟩ := hslots i sl hs
      refine ⟨h1, h2, h3, h4, h5, h6, h7, h8, fun hm => ?_⟩
      obtain ⟨j, sl', hs', hc, hp⟩ := hmarkers sl.channel hm
      have hij : i = j := Option.some.inj ((ho.1 i sl hs).1.symm.trans (hc ▸ (ho.1 j sl' hs').1))
      subst hij
      obtain rfl := Option.some.inj (hs.symm.trans hs')
      exact hp
    · obtain ⟨i, sl, hs, hc, -⟩ := hmarkers c hc
      exact ⟨i, sl, hs, hc⟩

namespace SlotSound
variable {number : Station} {fifo fifo' : List FifoEntry} {sl sl' : Slot}

/-- What the law reads of a slot: timers only as running or not, the owed message only by its kind. -/
theorem of_same (h : SlotSound number fifo sl) (hc : sl'.channel = sl.channel) (hp : sl'.phase = sl.phase)
    (hs : sl'.subscribers = sl.subscribers) (ha : sl'.awaited = sl.awaited)
    (hd : sl'.drainTimer = none ↔ sl.drainTimer = none) (hr : sl'.resendTimer = none ↔ sl.resendTimer = none)
    (ho : sl'.owed.map (fun o => o.kind) = sl.owed.map (fun o => o.kind)) : SlotSound number fifo sl' := by
  have hkind : ∀ p : SlotMessage → Prop, (∀ o, sl'.owed = some o → p o.kind) ↔ ∀ o, sl.owed = some o → p o.kind := by
    intro p
    cases h' : sl'.owed <;> cases h'' : sl.owed <;> simp_all
  have hexists : (∃ o, sl'.owed = some o ∧ o.kind = .release) ↔ ∃ o, sl.owed = some o ∧ o.kind = .release := by
    cases h' : sl'.owed <;> cases h'' : sl.owed <;> simp_all
  obtain ⟨h1, h2, h3, h4, h5, h6, h7, h8, h9⟩ := h
  constructor
  all_goals
    simp only [hc, hp, hs, ha, hexists, hkind (· = .announce), ne_eq, hd, hr]
    assumption

/-- The law reads of the FIFO only whether the channel's marker is there. -/
theorem of_fifo (h : SlotSound number fifo sl) (hm : .marker sl.channel ∈ fifo' ↔ .marker sl.channel ∈ fifo) :
    SlotSound number fifo' sl := by
  obtain ⟨h1, h2, h3, h4, h5, h6, h7, h8, h9⟩ := h
  rw [← hm] at h4 h8 h9
  exact ⟨h1, h2, h3, h4, h5, h6, h7, h8, h9⟩

/-- Outside RELEASING nobody is awaited, no timer of the drain runs and no marker is in the FIFO. -/
theorem idle (h : SlotSound number fifo sl) (hp : sl.phase ≠ .releasing) :
    sl.awaited = 0 ∧ sl.drainTimer = none ∧ sl.resendTimer = none ∧ .marker sl.channel ∉ fifo := by
  have ha : sl.awaited = 0 := by
    by_contra ha
    exact hp (h.awaiting ha).1
  refine ⟨ha, ?_, ?_, fun hm => hp (h.marked hm).1⟩
  · by_contra hd; exact h.drainTimer.mp hd ha
  · by_contra hr; exact h.resendTimer.mp hr ha

/-- A slot outside RELEASING that awaits nobody is sound when its members are. -/
theorem of_idle (hmembers : ∀ n, sl.subscribers.getLsbD n = true → 1 ≤ n ∧ n ≤ 62 ∧ n ≠ number.toNat)
    (hunheld : sl.phase = .claiming ∨ sl.phase = .announcing → sl.subscribers = 0) (hp : sl.phase ≠ .releasing)
    (ha : sl.awaited = 0) (hd : sl.drainTimer = none) (hr : sl.resendTimer = none) (hm : .marker sl.channel ∉ fifo)
    (hheld : sl.phase = .held → ∀ o, sl.owed = some o → o.kind = .announce) : SlotSound number fifo sl where
  members := hmembers
  unheld := hunheld
  subset := by simp [ha]
  awaiting h := absurd ha h
  drainTimer := by simp [ha, hd]
  resendTimer := by simp [ha, hr]
  held := hheld
  closing h := absurd h hp
  marked h := absurd h hm

/-- An owed message other than RELEASE is owed no longer. -/
theorem oweNothing (h : SlotSound number fifo sl) (ho : ∀ o, sl.owed = some o → o.kind ≠ .release) :
    SlotSound number fifo { sl with owed := none } := by
  obtain ⟨h1, h2, h3, h4, h5, h6, h7, h8, h9⟩ := h
  refine ⟨h1, h2, h3, h4, h5, h6, by simp, fun hp hm ha => ?_, fun hm => ⟨(h9 hm).1, by simp⟩⟩
  obtain ⟨o, hs, hk⟩ := h8 hp hm ha
  exact absurd hk (ho o hs)

theorem defend (h : SlotSound number fifo sl) : SlotSound number fifo sl.defend := by
  unfold Slot.defend
  split
  · rename_i hn
    obtain ⟨h1, h2, h3, h4, h5, h6, h7, h8, h9⟩ := h
    refine ⟨h1, h2, h3, h4, h5, h6, by simp [SlotOwed.fresh], fun hp hm ha => ?_,
      fun hm => ⟨(h9 hm).1, by simp [SlotOwed.fresh]⟩⟩
    obtain ⟨o, hs, -⟩ := h8 hp hm ha
    rw [hn.2] at hs
    cases hs
  · exact h

/-- A drain that closes owes RELEASE, and nobody is awaited (R49, R50). -/
theorem close (h : SlotSound number fifo sl) (ha : sl.awaited ≠ 0) (hc : sl'.channel = sl.channel)
    (hp : sl'.phase = sl.phase) (hs : ∀ n, sl'.subscribers.getLsbD n = true → sl.subscribers.getLsbD n = true)
    (ha' : sl'.awaited = 0) (hd : sl'.drainTimer = none) (hr : sl'.resendTimer = none)
    (ho : sl'.owed = some (.fresh .release)) :
    SlotSound number fifo sl' := by
  obtain ⟨hphase, hmarker⟩ := h.awaiting ha
  constructor
  · exact fun n hn => h.members n (hs n hn)
  · intro hunheld; rw [hp, hphase] at hunheld; simp at hunheld
  · simp [ha']
  · exact fun hne => absurd ha' hne
  · simp [hd, ha']
  · simp [hr, ha']
  · intro hheld; rw [hp, hphase] at hheld; cases hheld
  · exact fun _ _ _ => ⟨_, ho, rfl⟩
  · intro hm; rw [hc] at hm; exact absurd hm hmarker

theorem getLsbD_removeStation (set : StationSet) (x : Station) (n : Nat) :
    (removeStation set x).getLsbD n = (set.getLsbD n && !decide (n = x.toNat)) := by
  unfold removeStation
  rw [BitVec.getLsbD_and, BitVec.getLsbD_not, BitVec.getLsbD_twoPow]
  have hx := x.isLt
  by_cases hn : n < 64
  · by_cases hnx : n = x.toNat
    · subst hnx; simp [hn]
    · simp [hn, Ne.symm hnx, hnx]
  · simp [BitVec.getLsbD_of_ge set n (by omega)]

theorem getLsbD_addStation (set : StationSet) (x : Station) (n : Nat) :
    (addStation set x).getLsbD n = (set.getLsbD n || decide (n = x.toNat)) := by
  unfold addStation
  rw [BitVec.getLsbD_or, BitVec.getLsbD_twoPow]
  have hx := x.isLt
  by_cases hnx : n = x.toNat
  · subst hnx
    have : x.toNat < 64 := by omega
    simp [this]
  · simp [Ne.symm hnx, hnx]

theorem ne_zero_of_hasStation {set : StationSet} {x : Station} (h : hasStation set x = true) : set ≠ 0 := by
  rintro rfl
  simp [hasStation] at h

/-- Subscribers that go, while those awaited stay subscribers. -/
theorem of_fewer (h : SlotSound number fifo sl) (hc : sl'.channel = sl.channel) (hp : sl'.phase = sl.phase)
    (hs : ∀ n, sl'.subscribers.getLsbD n = true → sl.subscribers.getLsbD n = true)
    (ha : ∀ n, sl'.awaited.getLsbD n = true → sl'.subscribers.getLsbD n = true)
    (hne : sl'.awaited = 0 ↔ sl.awaited = 0)
    (hd : sl'.drainTimer = sl.drainTimer) (hr : sl'.resendTimer = sl.resendTimer) (ho : sl'.owed = sl.owed) :
    SlotSound number fifo sl' := by
  obtain ⟨h1, h2, h3, h4, h5, h6, h7, h8, h9⟩ := h
  refine ⟨fun n hn => h1 n (hs n hn), fun hph => ?_, ha, ?_, ?_, ?_, ?_, ?_, ?_⟩
  · have hzero := h2 (hp ▸ hph)
    refine BitVec.eq_of_getLsbD_eq fun n _ => ?_
    have hbit : sl'.subscribers.getLsbD n = false :=
      Bool.eq_false_iff.mpr fun hbit => by simpa [hzero] using hs n hbit
    simpa using hbit
  all_goals
    simp only [hc, hp, hd, hr, ho, ne_eq, hne]
    assumption

/-- A station leaves the awaited set (R48, R49). -/
theorem confirm (h : SlotSound number fifo sl) (x : Station) : SlotSound number fifo (sl.confirm x) := by
  unfold Slot.confirm
  split
  · rename_i hx
    have hne : sl.awaited ≠ 0 := ne_zero_of_hasStation hx
    dsimp only
    split
    · rename_i hz
      exact h.close hne rfl rfl (fun _ hn => hn) hz rfl rfl rfl
    · rename_i hz
      refine h.of_fewer rfl rfl (fun _ hn => hn) (fun n hn => h.subset n ?_) (iff_of_false hz hne) rfl rfl rfl
      rw [getLsbD_removeStation] at hn
      exact (Bool.and_eq_true_iff.mp hn).1
  · exact h

/-- A station leaves the subscriber set and the awaited set (R54, R55). -/
theorem forget (h : SlotSound number fifo sl) (x : Station) : SlotSound number fifo (sl.forget x) := by
  have hfewer : ∀ n, (removeStation sl.subscribers x).getLsbD n = true → sl.subscribers.getLsbD n = true := by
    intro n hn
    rw [getLsbD_removeStation] at hn
    exact (Bool.and_eq_true_iff.mp hn).1
  unfold Slot.forget Slot.confirm
  split
  · rename_i hx
    have hne : sl.awaited ≠ 0 := ne_zero_of_hasStation hx
    dsimp only
    split
    · rename_i hz
      exact h.close hne rfl rfl hfewer hz rfl rfl rfl
    · rename_i hz
      refine h.of_fewer rfl rfl hfewer (fun n hn => ?_) (iff_of_false hz hne) rfl rfl rfl
      rw [getLsbD_removeStation, Bool.and_eq_true_iff] at hn ⊢
      exact ⟨h.subset n hn.1, hn.2⟩
  · rename_i hx
    refine h.of_fewer rfl rfl hfewer (fun n hn => ?_) Iff.rfl rfl rfl rfl
    have hnx : n ≠ x.toNat := by rintro rfl; exact hx hn
    rw [getLsbD_removeStation]
    simp [h.subset n hn, hnx]

/-- The timer of a drain still runs: the resend goes on (R47). -/
theorem resend (h : SlotSound number fifo sl) (hr : sl.resendTimer ≠ none) (n : Nat) :
    SlotSound number fifo { sl with resendTimer := some n, owed := resendOwed sl.owed } := by
  have hne := h.resendTimer.mp hr
  obtain ⟨hphase, hmarker⟩ := h.awaiting hne
  obtain ⟨h1, h2, h3, h4, h5, -, -, -, -⟩ := h
  refine ⟨h1, h2, h3, h4, h5, by simpa using hne, fun hheld => ?_, fun _ _ hz => absurd hz hne,
    fun hm => absurd hm hmarker⟩
  rw [hphase] at hheld
  cases hheld

/-- The forced end of a drain (R50). -/
theorem force (h : SlotSound number fifo sl) (hd : sl.drainTimer ≠ none) : SlotSound number fifo sl.force :=
  h.close (h.drainTimer.mp hd) rfl rfl (fun _ hn => hn) rfl rfl rfl rfl

/-- A HELD slot takes one more subscriber, another station with a station's number (R70). -/
theorem subscribe (h : SlotSound number fifo sl) (hp : sl.phase = .held) {x : Station} (h0 : x ≠ 0) (h63 : x ≠ 63)
    (hx : x ≠ number) : SlotSound number fifo { sl with subscribers := addStation sl.subscribers x } := by
  obtain ⟨ha, hd, hr, hm⟩ := h.idle (by simp [hp])
  refine of_idle (fun n hn => ?_) (by simp [hp]) (by simp [hp]) ha hd hr hm h.held
  rw [getLsbD_addStation, Bool.or_eq_true_iff] at hn
  rcases hn with hn | hn
  · exact h.members n hn
  · obtain rfl : n = x.toNat := by simpa using hn
    have h0' : x.toNat ≠ 0 := fun he => h0 (BitVec.eq_of_toNat_eq he)
    have h63' : x.toNat ≠ 63 := fun he => h63 (BitVec.eq_of_toNat_eq he)
    have hlt := x.isLt
    exact ⟨by omega, by omega, fun he => hx (BitVec.eq_of_toNat_eq he)⟩

/-- The drain snapshot of a RELEASING slot whose marker has left the FIFO (R45). -/
theorem snapshot (h : SlotSound number fifo sl) (hp : sl.phase = .releasing) (hm : .marker sl.channel ∉ fifo')
    (s : State) : SlotSound number fifo' (s.snapshot sl) := by
  unfold State.snapshot
  split
  · exact ⟨h.members, h.unheld, by simp, by simp, by simp, by simp, by simp [hp],
      fun _ _ _ => ⟨_, rfl, rfl⟩, fun hm' => absurd hm' hm⟩
  · rename_i hs
    exact ⟨h.members, h.unheld, fun _ hn => hn, fun _ => ⟨hp, hm⟩, by simpa using hs, by simpa using hs, by simp [hp],
      fun _ _ hz => absurd hz hs, fun hm' => absurd hm' hm⟩

/-- A HELD slot becomes RELEASING, with its marker in the FIFO (R43). -/
theorem release (h : SlotSound number fifo sl) (hp : sl.phase = .held) (hm : .marker sl.channel ∈ fifo')
    (tag : Option Octet) : SlotSound number fifo' { sl with phase := .releasing, tag := tag } := by
  obtain ⟨ha, hd, hr, -⟩ := h.idle (by simp [hp])
  exact ⟨h.members, by simp, h.subset, fun hne => absurd ha hne, by simp [hd, ha], by simp [hr, ha], by simp,
    fun _ hm' => absurd hm hm', fun _ => ⟨rfl, h.held hp⟩⟩

end SlotSound

end Sys2Proof.Machine

/-! ## The invariant, and the moves that keep it -/

namespace Sys2Proof.Machine

/-- The tables in canonical form and in agreement; requests and work where `w` asks for it, all but the loose request;
the drain law where `d` asks for it. -/
structure Coherent (w d : Prop) (loose : Option Octet) (s : State) : Prop where
  tables : TableLaw s
  ownership : OwnershipLaw s
  subscription : SubscriptionLaw s
  work : w → Matched s.Holds s.port.requests loose
  drain : d → Drained s

/-- The parts of the state the invariant speaks of. -/
def State.ground (s : State) :=
  (s.channels, s.slots, s.contexts, s.peers, s.classifier.filters, s.store.fifo, s.station.number, s.port.requests)

section
variable {w d : Prop} {loose loose' : Option Octet} {s t : State}

/-! ### The parts of the laws -/

theorem TableLaw.wf_slots (h : TableLaw s) : FMap.wf 32 s.slots = true := h.1

theorem TableLaw.wf_contexts (h : TableLaw s) : FMap.wf 64 s.contexts = true := h.2.1

theorem TableLaw.wf_peers (h : TableLaw s) : FMap.wf 64 s.peers = true := h.2.2.1

theorem TableLaw.wf_channels (h : TableLaw s) : FMap.wf 1024 s.channels = true := h.2.2.2.1

theorem OwnershipLaw.slotIndex_eq_none (h : OwnershipLaw s) {c : Channel} (hv : (s.entry c).view.isLocal = false) :
    (s.entry c).slotIndex = none := h.2.2.1 c hv

theorem OwnershipLaw.free_iff (h : OwnershipLaw s) (c : Channel) :
    (s.entry c).view = .free ↔ (s.entry c).owner = none := h.2.2.2 c

theorem SubscriptionLaw.contextIndex_eq_none (h : SubscriptionLaw s) {c : Channel}
    (hs : (s.entry c).subscription = .none) : (s.entry c).contextIndex = none := h.2.2.1 c hs

theorem SubscriptionLaw.eq_none_of_local (h : SubscriptionLaw s) {c : Channel}
    (hv : (s.entry c).view.isLocal = true) : (s.entry c).subscription = .none := h.2.2.2 c hv

/-! ### What the invariant speaks of -/

theorem holds_of_same (h1 : t.slots = s.slots) (h2 : t.contexts = s.contexts) : t.Holds = s.Holds := by
  unfold State.Holds State.slotAt State.contextAt; rw [h1, h2]

/-- A step that leaves the parts the invariant speaks of keeps it. -/
theorem Coherent.of_ground (h : Coherent w d loose s) (hg : t.ground = s.ground) : Coherent w d loose t := by
  simp only [State.ground, Prod.mk.injEq] at hg
  obtain ⟨hch, hsl, hct, hpe, hfi, hff, hnu, hrq⟩ := hg
  have hentry : t.entry = s.entry := funext (State.entry_of_channels hch)
  have hslot : t.slotAt = s.slotAt := funext (State.slotAt_of_slots hsl)
  have hcontext : t.contextAt = s.contextAt := funext (State.contextAt_of_contexts hct)
  obtain ⟨htab, hown, hsub, hwork, hdrain⟩ := h
  refine ⟨?_, ?_, ?_, fun hw => ?_, fun hd => ?_⟩
  · unfold TableLaw at *; rw [hsl, hct, hpe, hch, hfi]; exact htab
  · unfold OwnershipLaw at *; rw [hentry, hslot, hnu]; exact hown
  · unfold SubscriptionLaw at *; rw [hentry, hcontext]; exact hsub
  · rw [holds_of_same hsl hct, hrq]; exact hwork hw
  · obtain ⟨h1, h2, h3⟩ := hdrain hd
    exact ⟨by rw [hslot, hnu, hff]; exact h1, by rw [hslot, hff]; exact h2, by rw [hff]; exact h3⟩

/-! ### What the laws say of a slot or a context that an entry leads to -/

theorem OwnershipLaw.channel_of_slotIndex (h : OwnershipLaw s) {c : Channel} {i : Nat} {sl : Slot}
    (hi : (s.entry c).slotIndex = some i) (hs : s.slotAt i = some sl) : sl.channel = c := by
  obtain ⟨hslots, hlocal, hother, -⟩ := h
  have hview : (s.entry c).view.isLocal = true := by
    by_contra hv
    rw [hother c (Bool.not_eq_true _ ▸ hv)] at hi
    cases hi
  obtain ⟨j, sl', hs', hc⟩ := hlocal c hview
  have hj := (hslots j sl' hs').1
  rw [hc, hi] at hj
  obtain rfl := Option.some.inj hj
  obtain rfl := Option.some.inj (hs.symm.trans hs')
  exact hc

theorem OwnershipLaw.of_slotOf (h : OwnershipLaw s) {c : Channel} {i : Nat} {sl : Slot}
    (hs : s.slotOf c = some (i, sl)) : s.slotAt i = some sl ∧ sl.channel = c := by
  obtain ⟨hi, hat⟩ := State.slotOf_eq_some.mp hs
  exact ⟨hat, h.channel_of_slotIndex hi hat⟩

theorem SubscriptionLaw.of_contextOf (h : SubscriptionLaw s) {c : Channel} {i : Nat} {k : Context}
    (hs : s.contextOf c = some (i, k)) : s.contextAt i = some k ∧ k.channel = c := by
  obtain ⟨hcontexts, hsome, hnone, -⟩ := h
  obtain ⟨hi, hat⟩ := State.contextOf_eq_some.mp hs
  have hsub : (s.entry c).subscription ≠ .none := by
    intro hn
    rw [hnone c hn] at hi
    cases hi
  obtain ⟨j, k', hs', hc⟩ := hsome c hsub
  have hj := (hcontexts j k' hs').1
  rw [hc, hi] at hj
  obtain rfl := Option.some.inj hj
  obtain rfl := Option.some.inj (hat.symm.trans hs')
  exact ⟨hat, hc⟩

/-- A channel has one slot. -/
theorem OwnershipLaw.index_eq (h : OwnershipLaw s) {i j : Nat} {sl sl' : Slot} (hi : s.slotAt i = some sl)
    (hj : s.slotAt j = some sl') (hc : sl'.channel = sl.channel) : j = i := by
  have h1 := (h.1 i sl hi).1
  have h2 := (h.1 j sl' hj).1
  rw [hc, h1] at h2
  exact (Option.some.inj h2).symm

theorem SubscriptionLaw.index_eq (h : SubscriptionLaw s) {i j : Nat} {k k' : Context} (hi : s.contextAt i = some k)
    (hj : s.contextAt j = some k') (hc : k'.channel = k.channel) : j = i := by
  have h1 := (h.1 i k hi).1
  have h2 := (h.1 j k' hj).1
  rw [hc, h1] at h2
  exact (Option.some.inj h2).symm

theorem Phase.view_isLocal (p : Phase) : p.view.isLocal = true := by cases p <;> rfl

theorem ContextState.shown_ne_none (p : ContextState) : p.shown ≠ .none := by cases p <;> simp [ContextState.shown]

/-- The entry of a slot's channel has a local view and no subscription (R5). -/
theorem Coherent.entry_of_slot (h : Coherent w d loose s) {i : Nat} {sl : Slot} (hs : s.slotAt i = some sl) :
    (s.entry sl.channel).view = sl.phase.view ∧ (s.entry sl.channel).slotIndex = some i ∧
      (s.entry sl.channel).subscription = .none := by
  obtain ⟨hi, hv, -⟩ := h.ownership.1 i sl hs
  exact ⟨hv, hi, h.subscription.eq_none_of_local (by rw [hv]; exact Phase.view_isLocal _)⟩

/-- The entry of a context's channel has no local view (R5). -/
theorem Coherent.entry_of_context (h : Coherent w d loose s) {i : Nat} {k : Context} (hs : s.contextAt i = some k) :
    (s.entry k.channel).view.isLocal = false ∧ (s.entry k.channel).contextIndex = some i ∧
      (s.entry k.channel).subscription = k.state.shown := by
  obtain ⟨hi, hst⟩ := h.subscription.1 i k hs
  refine ⟨?_, hi, hst⟩
  by_contra hv
  have := h.subscription.eq_none_of_local (by simpa using hv)
  exact ContextState.shown_ne_none _ (hst.symm.trans this)

theorem Coherent.slot_lt (h : Coherent w d loose s) {i : Nat} {sl : Slot} (hs : s.slotAt i = some sl) : i < 32 :=
  FMap.lt_of_find? h.tables.wf_slots hs

theorem Coherent.context_lt (h : Coherent w d loose s) {i : Nat} {k : Context} (hs : s.contextAt i = some k) : i < 64 :=
  FMap.lt_of_find? h.tables.wf_contexts hs

/-! ### How the two ownership laws follow one change -/

/-- What an entry says of ownership, and of subscription. -/
def ChannelEntry.ownership (e : ChannelEntry) := (e.view, e.owner, e.slotIndex)

def ChannelEntry.subscribing (e : ChannelEntry) := (e.subscription, e.contextIndex)

/-- One channel's slot and entry change together: the slot of index i is there and its entry shows it, or it is not
there and the entry has no local view. -/
theorem OwnershipLaw.update (h : OwnershipLaw s) {c : Channel} {i : Nat}
    (hnumber : t.station.number = s.station.number)
    (hentries : ∀ c', c' ≠ c → (t.entry c').ownership = (s.entry c').ownership)
    (hslots : ∀ j, j ≠ i → t.slotAt j = s.slotAt j) (hold : ∀ sl, s.slotAt i = some sl → sl.channel = c)
    (hindex : ∀ j, (s.entry c).slotIndex = some j → j = i)
    (hnew : (∃ sl, t.slotAt i = some sl ∧ sl.channel = c ∧
        (t.entry c).ownership = (sl.phase.view, some s.station.number, some i)) ∨
      (t.slotAt i = none ∧ (t.entry c).view.isLocal = false ∧ (t.entry c).slotIndex = none ∧
        ((t.entry c).view = .free ↔ (t.entry c).owner = none))) : OwnershipLaw t := by
  obtain ⟨h1, h2, h3, h4⟩ := h
  simp only [ChannelEntry.ownership, Prod.mk.injEq] at hentries hnew
  have hother : ∀ j sl, j ≠ i → s.slotAt j = some sl → sl.channel ≠ c := by
    rintro j sl hj hs rfl
    exact hj (hindex j (h1 j sl hs).1)
  refine ⟨fun j sl hs => ?_, fun c' hv => ?_, fun c' hv => ?_, fun c' => ?_⟩
  · by_cases hj : j = i
    · subst hj
      rcases hnew with ⟨sl', hs', rfl, hv, ho, hi⟩ | ⟨hnone, -⟩
      · obtain rfl := Option.some.inj (hs.symm.trans hs')
        exact ⟨hi, hv, by rw [hnumber]; exact ho⟩
      · rw [hnone] at hs; cases hs
    · rw [hslots j hj] at hs
      obtain ⟨hv, ho, hi⟩ := hentries sl.channel (hother j sl hj hs)
      rw [hv, ho, hi, hnumber]
      exact h1 j sl hs
  · by_cases hc : c' = c
    · subst hc
      rcases hnew with ⟨sl', hs', hsc, -⟩ | ⟨-, hv', -⟩
      · exact ⟨i, sl', hs', hsc⟩
      · rw [hv'] at hv; cases hv
    · rw [(hentries c' hc).1] at hv
      obtain ⟨j, sl, hs, hsc⟩ := h2 c' hv
      have hj : j ≠ i := by
        rintro rfl
        exact hc (hsc.symm.trans (hold sl hs))
      exact ⟨j, sl, (hslots j hj).trans hs, hsc⟩
  · by_cases hc : c' = c
    · subst hc
      rcases hnew with ⟨sl', -, -, hv', -⟩ | ⟨-, -, hi, -⟩
      · rw [hv', Phase.view_isLocal] at hv; cases hv
      · exact hi
    · obtain ⟨hv', -, hi⟩ := hentries c' hc
      rw [hi]; rw [hv'] at hv
      exact h3 c' hv
  · by_cases hc : c' = c
    · subst hc
      rcases hnew with ⟨sl', -, -, hv', ho, -⟩ | ⟨-, -, -, hiff⟩
      · rw [hv', ho]; cases sl'.phase <;> simp [Phase.view]
      · exact hiff
    · obtain ⟨hv', ho, -⟩ := hentries c' hc
      rw [hv', ho]
      exact h4 c'

/-- One channel's context and entry change together. -/
theorem SubscriptionLaw.update (h : SubscriptionLaw s) {c : Channel} {i : Nat}
    (hentries : ∀ c', c' ≠ c → (t.entry c').subscribing = (s.entry c').subscribing ∧
      (t.entry c').view = (s.entry c').view)
    (hcontexts : ∀ j, j ≠ i → t.contextAt j = s.contextAt j) (hold : ∀ k, s.contextAt i = some k → k.channel = c)
    (hindex : ∀ j, (s.entry c).contextIndex = some j → j = i)
    (hnew : (∃ k, t.contextAt i = some k ∧ k.channel = c ∧ (t.entry c).subscribing = (k.state.shown, some i) ∧
        (t.entry c).view.isLocal = false) ∨
      (t.contextAt i = none ∧ (t.entry c).subscribing = (.none, none))) : SubscriptionLaw t := by
  obtain ⟨h1, h2, h3, h4⟩ := h
  simp only [ChannelEntry.subscribing, Prod.mk.injEq] at hentries hnew
  have hother : ∀ j k, j ≠ i → s.contextAt j = some k → k.channel ≠ c := by
    rintro j k hj hs rfl
    exact hj (hindex j (h1 j k hs).1)
  refine ⟨fun j k hs => ?_, fun c' hv => ?_, fun c' hv => ?_, fun c' hv => ?_⟩
  · by_cases hj : j = i
    · subst hj
      rcases hnew with ⟨k', hs', rfl, ⟨hst, hi⟩, -⟩ | ⟨hnone, -⟩
      · obtain rfl := Option.some.inj (hs.symm.trans hs')
        exact ⟨hi, hst⟩
      · rw [hnone] at hs; cases hs
    · rw [hcontexts j hj] at hs
      obtain ⟨⟨hst, hi⟩, -⟩ := hentries k.channel (hother j k hj hs)
      rw [hst, hi]
      exact h1 j k hs
  · by_cases hc : c' = c
    · subst hc
      rcases hnew with ⟨k', hs', hkc, -⟩ | ⟨-, hst, -⟩
      · exact ⟨i, k', hs', hkc⟩
      · exact absurd hst hv
    · rw [(hentries c' hc).1.1] at hv
      obtain ⟨j, k, hs, hkc⟩ := h2 c' hv
      have hj : j ≠ i := by
        rintro rfl
        exact hc (hkc.symm.trans (hold k hs))
      exact ⟨j, k, (hcontexts j hj).trans hs, hkc⟩
  · by_cases hc : c' = c
    · subst hc
      rcases hnew with ⟨k', -, -, ⟨hst, -⟩, -⟩ | ⟨-, -, hi⟩
      · exact absurd (hst.symm.trans hv) (ContextState.shown_ne_none _)
      · exact hi
    · obtain ⟨⟨hst, hi⟩, -⟩ := hentries c' hc
      rw [hi]; rw [hst] at hv
      exact h3 c' hv
  · by_cases hc : c' = c
    · subst hc
      rcases hnew with ⟨k', -, -, -, hview⟩ | ⟨-, hst, -⟩
      · rw [hview] at hv; cases hv
      · exact hst
    · obtain ⟨⟨hst, -⟩, hview⟩ := hentries c' hc
      rw [hst]; rw [hview] at hv
      exact h4 c' hv

/-- The subscription law where contexts and subscriptions stay and no view becomes local over a subscription. -/
theorem SubscriptionLaw.of_views (h : SubscriptionLaw s) (hcontexts : t.contexts = s.contexts)
    (hentries : ∀ c, (t.entry c).subscribing = (s.entry c).subscribing)
    (hviews : ∀ c, (t.entry c).view.isLocal = true → (s.entry c).subscription = .none) : SubscriptionLaw t := by
  obtain ⟨h1, h2, h3, -⟩ := h
  simp only [ChannelEntry.subscribing, Prod.mk.injEq] at hentries
  have hat : t.contextAt = s.contextAt := funext (State.contextAt_of_contexts hcontexts)
  unfold SubscriptionLaw
  simp only [hat, hentries]
  exact ⟨h1, h2, h3, hviews⟩

/-- The ownership law where slots and ownership parts stay. -/
theorem OwnershipLaw.of_entries (h : OwnershipLaw s) (hslots : t.slots = s.slots)
    (hnumber : t.station.number = s.station.number) (hentries : ∀ c, (t.entry c).ownership = (s.entry c).ownership) :
    OwnershipLaw t := by
  simp only [ChannelEntry.ownership, Prod.mk.injEq] at hentries
  have hat : t.slotAt = s.slotAt := funext (State.slotAt_of_slots hslots)
  unfold OwnershipLaw at *
  simp only [hat, hentries, hnumber]
  exact h

/-! ### Holders of tags -/

/-- Who holds a tag once slot i is not there. -/
theorem Coherent.holds_without_slot (h : Coherent w d none s) (hw : w) {i : Nat} {sl : Slot} (hs : s.slotAt i = some sl)
    (hslots : ∀ j, t.slotAt j = if j = i then none else s.slotAt j) (hcontexts : ∀ j, t.contextAt j = s.contextAt j)
    (v : Octet) (kind : Option RequestKind) (c : Channel) :
    t.Holds v kind c ↔ s.Holds v kind c ∧ some v ≠ sl.tag := by
  have hm := h.work hw
  have hunique : sl.tag = some v → s.Holds v kind c → c = sl.channel ∧ kind = sl.phase.request := fun ht hv => by
    obtain ⟨-, k, rfl, hr⟩ := hm.held _ _ _ hv
    obtain ⟨-, k', hk', hr'⟩ := hm.held _ _ _ (.inl ⟨i, sl, hs, ht, rfl, rfl⟩)
    have heq := eq_of_tag_eq hm.nodup hr hr' rfl
    simp only [PendingRequest.mk.injEq, Option.some.injEq, true_and] at heq
    exact ⟨heq.2, heq.1 ▸ hk'.symm⟩
  unfold State.Holds at *
  simp only [hslots, hcontexts]
  constructor
  · rintro (⟨j, sl', hs', ht, hk, hc⟩ | ⟨j, k, hs', ht, hk, hc⟩)
    · split at hs'
      · cases hs'
      · rename_i hj
        refine ⟨.inl ⟨j, sl', hs', ht, hk, hc⟩, fun he => hj ?_⟩
        exact h.ownership.index_eq hs hs' (hc.trans (hunique he.symm (.inl ⟨j, sl', hs', ht, hk, hc⟩)).1)
    · refine ⟨.inr ⟨j, k, hs', ht, hk, hc⟩, fun he => ?_⟩
      have hkind := (hunique he.symm (.inr ⟨j, k, hs', ht, hk, hc⟩)).2
      obtain ⟨-, k', hk', -⟩ := hm.held _ _ _ (.inr ⟨j, k, hs', ht, hk, hc⟩)
      rw [hk'] at hkind hk
      rcases Phase.request_cases hkind.symm with rfl | rfl <;>
        rcases ContextState.request_cases hk with hx | hx <;> cases hx
  · rintro ⟨⟨j, sl', hs', ht, hk, hc⟩ | hright, hne⟩
    · refine .inl ⟨j, sl', ?_, ht, hk, hc⟩
      rw [if_neg, hs']
      rintro rfl
      obtain rfl := Option.some.inj (hs.symm.trans hs')
      exact hne ht.symm
    · exact .inr hright

/-- Who holds a tag once context i is not there. -/
theorem Coherent.holds_without_context (h : Coherent w d none s) (hw : w) {i : Nat} {k : Context}
    (hs : s.contextAt i = some k) (hslots : ∀ j, t.slotAt j = s.slotAt j)
    (hcontexts : ∀ j, t.contextAt j = if j = i then none else s.contextAt j)
    (v : Octet) (kind : Option RequestKind) (c : Channel) :
    t.Holds v kind c ↔ s.Holds v kind c ∧ some v ≠ k.tag := by
  have hm := h.work hw
  have hunique : k.tag = some v → s.Holds v kind c → c = k.channel ∧ kind = k.state.request := fun ht hv => by
    obtain ⟨-, x, rfl, hr⟩ := hm.held _ _ _ hv
    obtain ⟨-, x', hx', hr'⟩ := hm.held _ _ _ (.inr ⟨i, k, hs, ht, rfl, rfl⟩)
    have heq := eq_of_tag_eq hm.nodup hr hr' rfl
    simp only [PendingRequest.mk.injEq, Option.some.injEq, true_and] at heq
    exact ⟨heq.2, heq.1 ▸ hx'.symm⟩
  unfold State.Holds at *
  simp only [hslots, hcontexts]
  constructor
  · rintro (⟨j, sl, hs', ht, hk, hc⟩ | ⟨j, k', hs', ht, hk, hc⟩)
    · refine ⟨.inl ⟨j, sl, hs', ht, hk, hc⟩, fun he => ?_⟩
      have hkind := (hunique he.symm (.inl ⟨j, sl, hs', ht, hk, hc⟩)).2
      obtain ⟨-, x, hx, -⟩ := hm.held _ _ _ (.inl ⟨j, sl, hs', ht, hk, hc⟩)
      rw [hx] at hkind hk
      rcases ContextState.request_cases hkind.symm with rfl | rfl <;>
        rcases Phase.request_cases hk with hx | hx <;> cases hx
    · split at hs'
      · cases hs'
      · rename_i hj
        refine ⟨.inr ⟨j, k', hs', ht, hk, hc⟩, fun he => hj ?_⟩
        exact h.subscription.index_eq hs hs' (hc.trans (hunique he.symm (.inr ⟨j, k', hs', ht, hk, hc⟩)).1)
  · rintro ⟨hleft | ⟨j, k', hs', ht, hk, hc⟩, hne⟩
    · exact .inl hleft
    · refine .inr ⟨j, k', ?_, ht, hk, hc⟩
      rw [if_neg, hs']
      rintro rfl
      obtain rfl := Option.some.inj (hs.symm.trans hs')
      exact hne ht.symm

/-- Who holds a tag once slot i is written: those that did without it, and the slot written. -/
theorem holds_with_slot {u : State} {i : Nat} {sl : Slot} (hu : ∀ j, u.slotAt j = if j = i then none else s.slotAt j)
    (ht : ∀ j, t.slotAt j = if j = i then some sl else s.slotAt j) (hc : ∀ j, t.contextAt j = u.contextAt j)
    (v : Octet) (kind : Option RequestKind) (c : Channel) :
    t.Holds v kind c ↔ u.Holds v kind c ∨ (sl.tag = some v ∧ sl.phase.request = kind ∧ sl.channel = c) := by
  unfold State.Holds
  simp only [hu, ht, hc]
  constructor
  · rintro (⟨j, sl', hs', hx⟩ | hright)
    · split at hs'
      · cases hs'; exact .inr hx
      · rename_i hj
        exact .inl (.inl ⟨j, sl', by rw [if_neg hj, hs'], hx⟩)
    · exact .inl (.inr hright)
  · rintro ((⟨j, sl', hs', hx⟩ | hright) | hx)
    · split at hs'
      · cases hs'
      · rename_i hj
        exact .inl ⟨j, sl', by rw [if_neg hj, hs'], hx⟩
    · exact .inr hright
    · exact .inl ⟨i, sl, by rw [if_pos rfl], hx⟩

theorem holds_with_context {u : State} {i : Nat} {k : Context}
    (hu : ∀ j, u.contextAt j = if j = i then none else s.contextAt j)
    (ht : ∀ j, t.contextAt j = if j = i then some k else s.contextAt j) (hc : ∀ j, t.slotAt j = u.slotAt j)
    (v : Octet) (kind : Option RequestKind) (c : Channel) :
    t.Holds v kind c ↔ u.Holds v kind c ∨ (k.tag = some v ∧ k.state.request = kind ∧ k.channel = c) := by
  unfold State.Holds
  simp only [hu, ht, hc]
  constructor
  · rintro (hleft | ⟨j, k', hs', hx⟩)
    · exact .inl (.inl hleft)
    · split at hs'
      · cases hs'; exact .inr hx
      · rename_i hj
        exact .inl (.inr ⟨j, k', by rw [if_neg hj, hs'], hx⟩)
  · rintro ((hleft | ⟨j, k', hs', hx⟩) | hx)
    · exact .inl hleft
    · split at hs'
      · cases hs'
      · rename_i hj
        exact .inr ⟨j, k', by rw [if_neg hj, hs'], hx⟩
    · exact .inr ⟨i, k, by rw [if_pos rfl], hx⟩

end

end Sys2Proof.Machine

/-! ## One lemma for each move on slots, contexts, entries, markers and requests -/

namespace Sys2Proof.Machine

section
variable {w d : Prop} {loose loose' : Option Octet} {s t : State}

/-! ### The drain law along one change -/

/-- The drain law where the FIFO stays: every slot there is as it was or sound, and a slot with a marker stays. -/
theorem Drained.of_slots (h : Drained s) (hn : t.station.number = s.station.number) (hf : t.store.fifo = s.store.fifo)
    (hsound : ∀ j sl, t.slotAt j = some sl →
      s.slotAt j = some sl ∨ SlotSound s.station.number s.store.fifo sl)
    (hmarked : ∀ j sl, s.slotAt j = some sl → .marker sl.channel ∈ s.store.fifo →
      ∃ sl', t.slotAt j = some sl' ∧ sl'.channel = sl.channel) : Drained t := by
  obtain ⟨h1, h2, h3⟩ := h
  refine ⟨fun j sl hs => ?_, fun c hc => ?_, by rw [hf]; exact h3⟩
  · rw [hn, hf]
    rcases hsound j sl hs with hs' | hs'
    · exact h1 j sl hs'
    · exact hs'
  · rw [hf] at hc
    obtain ⟨j, sl, hs, rfl⟩ := h2 c hc
    obtain ⟨sl', hs', hc'⟩ := hmarked j sl hs hc
    exact ⟨j, sl', hs', hc'⟩

/-- A slot written at its place, sound and of the same channel. -/
theorem Drained.putSlot (h : Drained s) (hn : t.station.number = s.station.number) (hf : t.store.fifo = s.store.fifo)
    {i : Nat} {sl sl' : Slot} (hs : s.slotAt i = some sl)
    (ht : ∀ j, t.slotAt j = if j = i then some sl' else s.slotAt j) (hc : sl'.channel = sl.channel)
    (hsound : SlotSound s.station.number s.store.fifo sl') : Drained t := by
  refine h.of_slots hn hf (fun j x hx => ?_) (fun j x hx _ => ?_)
  · rw [ht] at hx
    split at hx
    · cases hx; exact .inr hsound
    · exact .inl hx
  · by_cases hj : j = i
    · subst hj
      obtain rfl := Option.some.inj (hs.symm.trans hx)
      exact ⟨sl', by rw [ht, if_pos rfl], hc⟩
    · exact ⟨x, by rw [ht, if_neg hj, hx], rfl⟩

/-! ### Slots and contexts changed in place -/

/-- What the laws but the drain law read of a slot, and of a context. -/
def Slot.footing (sl : Slot) := (sl.channel, sl.phase, sl.tag)

def Context.footing (k : Context) := (k.channel, k.state, k.tag)

theorem slot_of_footing {o o' : Option Slot} (h : o'.map Slot.footing = o.map Slot.footing) {sl : Slot}
    (hs : o = some sl) : ∃ sl', o' = some sl' ∧ sl'.channel = sl.channel ∧ sl'.phase = sl.phase ∧ sl'.tag = sl.tag := by
  subst hs
  cases o' with
  | none => simp at h
  | some sl' => simpa [Slot.footing] using h

theorem context_of_footing {o o' : Option Context} (h : o'.map Context.footing = o.map Context.footing) {k : Context}
    (hs : o = some k) : ∃ k', o' = some k' ∧ k'.channel = k.channel ∧ k'.state = k.state ∧ k'.tag = k.tag := by
  subst hs
  cases o' with
  | none => simp at h
  | some k' => simpa [Context.footing] using h

theorem holds_mono_of_footing (hslots : ∀ j, (t.slotAt j).map Slot.footing = (s.slotAt j).map Slot.footing)
    (hcontexts : ∀ j, (t.contextAt j).map Context.footing = (s.contextAt j).map Context.footing)
    {v : Octet} {kind : Option RequestKind} {c : Channel} (h : s.Holds v kind c) : t.Holds v kind c := by
  rcases h with ⟨j, sl, hs, ht, hk, hc⟩ | ⟨j, k, hs, ht, hk, hc⟩
  · obtain ⟨sl', hs', hc', hp', ht'⟩ := slot_of_footing (hslots j) hs
    exact .inl ⟨j, sl', hs', ht'.trans ht, by rw [hp', hk], hc'.trans hc⟩
  · obtain ⟨k', hs', hc', hp', ht'⟩ := context_of_footing (hcontexts j) hs
    exact .inr ⟨j, k', hs', ht'.trans ht, by rw [hp', hk], hc'.trans hc⟩

/-- Slots and contexts changed in place, each keeping channel, phase and tag. -/
theorem Coherent.of_footing (h : Coherent w d loose s) (htables : TableLaw t) (hch : t.channels = s.channels)
    (hnumber : t.station.number = s.station.number) (hrequests : t.port.requests = s.port.requests)
    (hslots : ∀ j, (t.slotAt j).map Slot.footing = (s.slotAt j).map Slot.footing)
    (hcontexts : ∀ j, (t.contextAt j).map Context.footing = (s.contextAt j).map Context.footing)
    (hdrain : d → Drained s → Drained t) : Coherent w d loose t := by
  have hentry : t.entry = s.entry := funext (State.entry_of_channels hch)
  obtain ⟨-, ⟨o1, o2, o3, o4⟩, ⟨s1, s2, s3, s4⟩, hwork, hd⟩ := h
  refine ⟨htables, ⟨fun j sl hs => ?_, fun c hv => ?_, ?_, ?_⟩, ⟨fun j k hs => ?_, fun c hv => ?_, ?_, ?_⟩,
    fun hw => ?_, fun hd' => hdrain hd' (hd hd')⟩
  · obtain ⟨sl', hs', hc, hp, -⟩ := slot_of_footing (hslots j).symm hs
    rw [hentry, hnumber, ← hc, ← hp]
    exact o1 j sl' hs'
  · rw [hentry] at hv
    obtain ⟨j, sl, hs, hc⟩ := o2 c hv
    obtain ⟨sl', hs', hc', -⟩ := slot_of_footing (hslots j) hs
    exact ⟨j, sl', hs', hc'.trans hc⟩
  · rw [hentry]; exact o3
  · rw [hentry]; exact o4
  · obtain ⟨k', hs', hc, hp, -⟩ := context_of_footing (hcontexts j).symm hs
    rw [hentry, ← hc, ← hp]
    exact s1 j k' hs'
  · rw [hentry] at hv
    obtain ⟨j, k, hs, hc⟩ := s2 c hv
    obtain ⟨k', hs', hc', -⟩ := context_of_footing (hcontexts j) hs
    exact ⟨j, k', hs', hc'.trans hc⟩
  · rw [hentry]; exact s3
  · rw [hentry]; exact s4
  · rw [hrequests]
    exact (hwork hw).congr fun v kind c =>
      ⟨holds_mono_of_footing (fun j => (hslots j).symm) (fun j => (hcontexts j).symm),
        holds_mono_of_footing hslots hcontexts⟩

/-- A slot written at its place with channel, phase and tag kept. -/
theorem Coherent.putSlot (h : Coherent w d loose s) {i : Nat} {sl sl' : Slot} (hs : s.slotAt i = some sl)
    (hf : sl'.footing = sl.footing)
    (hsound : SlotSound s.station.number s.store.fifo sl → SlotSound s.station.number s.store.fifo sl') :
    Coherent w d loose (s.putSlot i sl') := by
  have hslots := State.slotAt_of_insert (s := s) (State.putSlot_slots s i sl')
  obtain ⟨h1, h2⟩ := h.tables
  have hc : sl'.channel = sl.channel := congrArg Prod.fst hf
  refine h.of_footing ⟨FMap.wf_insert h1 (h.slot_lt hs) _, h2⟩ rfl rfl rfl (fun j => ?_) (fun _ => rfl)
    fun _ hd => hd.putSlot rfl rfl hs hslots hc (hsound (hd.slots i sl hs))
  rw [hslots]
  split
  · subst_vars; rw [hs]; simp [hf]
  · rfl

/-- A map over all slots that keeps channel, phase and tag. -/
theorem Coherent.mapSlots (h : Coherent w d loose s) (f : Slot → Slot) (hf : ∀ sl, (f sl).footing = sl.footing)
    (hsound : ∀ sl, SlotSound s.station.number s.store.fifo sl → SlotSound s.station.number s.store.fifo (f sl)) :
    Coherent w d loose { s with slots := FMap.mapValues f s.slots } := by
  have hslots : ∀ j, ({ s with slots := FMap.mapValues f s.slots } : State).slotAt j = (s.slotAt j).map f :=
    fun j => FMap.find?_mapValues ..
  obtain ⟨h1, h2⟩ := h.tables
  refine h.of_footing ⟨FMap.wf_mapValues h1 f, h2⟩ rfl rfl rfl (fun j => ?_) (fun _ => rfl) fun _ hd => ?_
  · rw [hslots, Option.map_map]
    congr 1
    exact funext hf
  · refine hd.of_slots rfl rfl (fun j sl hs => ?_) (fun j sl hs _ => ?_)
    · rw [hslots] at hs
      obtain ⟨sl', hs', rfl⟩ := Option.map_eq_some_iff.mp hs
      exact .inr (hsound sl' (hd.slots j sl' hs'))
    · exact ⟨f sl, by rw [hslots, hs]; rfl, congrArg Prod.fst (hf sl)⟩

/-- A context written at its place with channel, state and tag kept. -/
theorem Coherent.putContext (h : Coherent w d loose s) {i : Nat} {k k' : Context} (hs : s.contextAt i = some k)
    (hf : k'.footing = k.footing) : Coherent w d loose (s.putContext i k') := by
  have hcontexts := State.contextAt_of_insert (s := s) (State.putContext_contexts s i k')
  obtain ⟨h1, h2, h3⟩ := h.tables
  refine h.of_footing ⟨h1, FMap.wf_insert h2 (h.context_lt hs) _, h3⟩ rfl rfl rfl (fun _ => rfl) (fun j => ?_)
    fun _ hd => hd.of_slots rfl rfl (fun j sl hs => .inl hs) (fun j sl hs _ => ⟨sl, hs, rfl⟩)
  rw [hcontexts]
  split
  · subst_vars; rw [hs]; simp [hf]
  · rfl

/-- A map over all contexts that keeps channel, state and tag. -/
theorem Coherent.mapContexts (h : Coherent w d loose s) (f : Context → Context) (hf : ∀ k, (f k).footing = k.footing) :
    Coherent w d loose { s with contexts := FMap.mapValues f s.contexts } := by
  obtain ⟨h1, h2, h3⟩ := h.tables
  refine h.of_footing ⟨h1, FMap.wf_mapValues h2 f, h3⟩ rfl rfl rfl (fun _ => rfl) (fun j => ?_)
    fun _ hd => hd.of_slots rfl rfl (fun j sl hs => .inl hs) (fun j sl hs _ => ⟨sl, hs, rfl⟩)
  show (FMap.find? (FMap.mapValues f s.contexts) j).map _ = _
  rw [FMap.find?_mapValues, Option.map_map]
  congr 1
  exact funext hf

/-! ### Entries rewritten -/

/-- Entries rewritten: each keeps its subscription, and its ownership part too or goes from one view that is not local
to another (R11, R19, R20). -/
theorem Coherent.relearn (h : Coherent w d loose s) {m : FMap ChannelEntry} (hwf : FMap.wf 1024 m = true)
    (hm : ∀ c, (({ s with channels := m } : State).entry c).subscribing = (s.entry c).subscribing ∧
      ((({ s with channels := m } : State).entry c).ownership = (s.entry c).ownership ∨
        ((s.entry c).view.isLocal = false ∧ (({ s with channels := m } : State).entry c).view.isLocal = false ∧
          (({ s with channels := m } : State).entry c).slotIndex = none ∧
          ((({ s with channels := m } : State).entry c).view = .free ↔
            (({ s with channels := m } : State).entry c).owner = none)))) :
    Coherent w d loose { s with channels := m } := by
  generalize ht : ({ s with channels := m } : State) = t at *
  have hslots : t.slots = s.slots := by rw [← ht]
  have hcontexts : t.contexts = s.contexts := by rw [← ht]
  have hrequests : t.port = s.port := by rw [← ht]
  have hstore : t.store = s.store := by rw [← ht]
  have hstation : t.station = s.station := by rw [← ht]
  have htables : TableLaw t := by
    obtain ⟨h1, h2, h3, -, h5⟩ := h.tables
    rw [← ht]
    exact ⟨h1, h2, h3, hwf, h5⟩
  have hat : t.slotAt = s.slotAt := funext (State.slotAt_of_slots hslots)
  obtain ⟨-, ⟨o1, o2, o3, o4⟩, hsub, hwork, hdrain⟩ := h
  simp only [ChannelEntry.ownership, Prod.mk.injEq] at hm
  have hlocal : ∀ c, (t.entry c).view.isLocal = true →
      (t.entry c).view = (s.entry c).view ∧ (t.entry c).owner = (s.entry c).owner ∧
        (t.entry c).slotIndex = (s.entry c).slotIndex := fun c hv => by
    rcases (hm c).2 with hsame | ⟨-, hv', -⟩
    · exact hsame
    · rw [hv'] at hv; cases hv
  refine ⟨htables, ⟨fun j sl hs => ?_, fun c hv => ?_, fun c hv => ?_, fun c => ?_⟩,
    hsub.of_views hcontexts (fun c => (hm c).1) (fun c hv => ?_), fun hw => ?_, fun hd => ?_⟩
  · rw [hat] at hs
    have hold := o1 j sl hs
    rcases (hm sl.channel).2 with ⟨hv, ho, hi⟩ | ⟨hv, -⟩
    · rw [hv, ho, hi, hstation]; exact hold
    · rw [hold.2.1, Phase.view_isLocal] at hv; cases hv
  · rw [hat]
    rw [(hlocal c hv).1] at hv
    exact o2 c hv
  · rcases (hm c).2 with ⟨hv', -, hi⟩ | ⟨-, -, hi, -⟩
    · rw [hi]; rw [hv'] at hv; exact o3 c hv
    · exact hi
  · rcases (hm c).2 with ⟨hv, ho, -⟩ | ⟨-, -, -, hiff⟩
    · rw [hv, ho]; exact o4 c
    · exact hiff
  · rw [(hlocal c hv).1] at hv
    exact hsub.eq_none_of_local hv
  · rw [holds_of_same hslots hcontexts, hrequests]; exact hwork hw
  · exact (hdrain hd).of_slots (by rw [hstation]) (by rw [hstore]) (fun j sl hs => .inl (hat ▸ hs))
      (fun j sl hs _ => ⟨sl, hat ▸ hs, rfl⟩)

/-- One entry rewritten. -/
theorem Coherent.setEntry (h : Coherent w d loose s) {c : Channel} {e : ChannelEntry}
    (hsub : e.subscribing = (s.entry c).subscribing)
    (hown : e.ownership = (s.entry c).ownership ∨
      ((s.entry c).view.isLocal = false ∧ e.view.isLocal = false ∧ e.slotIndex = none ∧
        (e.view = .free ↔ e.owner = none))) :
    Coherent w d loose (s.setEntry c e) := by
  refine h.relearn (wf_putEntry h.tables.wf_channels c.isLt e) fun c' => ?_
  have hentry : ({ s with channels := putEntry s.channels c.toNat e } : State).entry c' =
      if c' = c then e else s.entry c' := State.entry_setEntry s c c' e
  rw [hentry]
  split
  · subst_vars; exact ⟨hsub, hown⟩
  · exact ⟨rfl, .inl rfl⟩

/-- A view that is not local becomes FREE or HELD_REMOTE (R3). -/
theorem Coherent.setFree (h : Coherent w d loose s) {c : Channel} (hv : (s.entry c).view.isLocal = false) :
    Coherent w d loose (s.setEntry c (s.entry c).toFree) :=
  h.setEntry rfl (.inr ⟨hv, rfl, rfl, by simp [ChannelEntry.toFree]⟩)

theorem Coherent.setRemote (h : Coherent w d loose s) {c : Channel} (hv : (s.entry c).view.isLocal = false)
    (x : Station) : Coherent w d loose (s.setEntry c ((s.entry c).toRemote x)) :=
  h.setEntry rfl (.inr ⟨hv, rfl, rfl, by simp [ChannelEntry.toRemote]⟩)

/-! ### A slot written with its entry, and a slot freed -/

/-- A slot and its channel's entry written together, and the FIFO with them. -/
theorem Coherent.setSlot (h : Coherent w d loose s) {i : Nat} {sl : Slot} {f : List FifoEntry} (hi : i < 32)
    (hold : ∀ x, s.slotAt i = some x → x.channel = sl.channel)
    (hindex : ∀ j, (s.entry sl.channel).slotIndex = some j → j = i)
    (hsub : (s.entry sl.channel).subscription = .none)
    (ht : t = ((s.putSlot i sl).setEntry sl.channel
      ((s.entry sl.channel).toLocal sl.phase.view s.station.number i)).setFifo f)
    (hwork : w → Matched t.Holds s.port.requests loose') (hdrain : d → Drained t) : Coherent w d loose' t := by
  subst ht
  have hslots := State.slotAt_of_insert (s := s) (State.putSlot_slots s i sl)
  have hentry (c : Channel) : (((s.putSlot i sl).setEntry sl.channel
      ((s.entry sl.channel).toLocal sl.phase.view s.station.number i)).setFifo f).entry c =
        if c = sl.channel then (s.entry sl.channel).toLocal sl.phase.view s.station.number i else s.entry c :=
    State.entry_setEntry (s.putSlot i sl) sl.channel c _
  obtain ⟨h1, h2, h3, h4, h5⟩ := h.tables
  refine ⟨⟨FMap.wf_insert h1 hi _, h2, h3, wf_putEntry h4 sl.channel.isLt _, h5⟩, ?_, ?_, hwork, hdrain⟩
  · refine h.ownership.update (c := sl.channel) (i := i) rfl (fun c hc => by rw [hentry, if_neg hc])
      (fun j hj => (hslots j).trans (if_neg hj)) hold hindex (.inl ⟨sl, (hslots i).trans (if_pos rfl), rfl, ?_⟩)
    rw [hentry, if_pos rfl]
    rfl
  · refine h.subscription.of_views rfl (fun c => ?_) (fun c hv => ?_)
    · rw [hentry]
      split
      · subst_vars; rfl
      · rfl
    · rw [hentry] at hv
      split at hv
      · subst_vars; exact hsub
      · exact h.subscription.eq_none_of_local hv

/-- The tags held once a slot that holds the same tag, or a slot that holds none, is written in place of another. -/
theorem Coherent.matched_keepSlot (h : Coherent w d loose s) (hw : w) {i : Nat} {sl sl' : Slot}
    (hs : s.slotAt i = some sl) (ht : ∀ j, t.slotAt j = if j = i then some sl' else s.slotAt j)
    (hc : ∀ j, t.contextAt j = s.contextAt j) (htag : sl'.tag = sl.tag) (hchannel : sl'.channel = sl.channel)
    (hkind : sl.tag = none ∨ sl'.phase.request = sl.phase.request) :
    Matched t.Holds s.port.requests loose := by
  have hs' : ∀ j, s.slotAt j = if j = i then some sl else s.slotAt j := fun j => by
    split
    · subst_vars; exact hs
    · rfl
  refine (h.work hw).congr fun v kind c => ?_
  rw [holds_with_slot (u := { s with slots := FMap.erase s.slots i }) (fun j => State.slotAt_of_erase rfl j) ht hc,
    holds_with_slot (u := { s with slots := FMap.erase s.slots i }) (fun j => State.slotAt_of_erase rfl j) hs'
      (fun _ => rfl), htag, hchannel]
  rcases hkind with hnone | hkind
  · simp [hnone]
  · rw [hkind]

theorem Coherent.matched_dropSlot (h : Coherent w d none s) (hw : w) {i : Nat} {sl sl' : Slot}
    (hs : s.slotAt i = some sl) (ht : ∀ j, t.slotAt j = if j = i then some sl' else s.slotAt j)
    (hc : ∀ j, t.contextAt j = s.contextAt j) (htag : sl'.tag = none) : Matched t.Holds s.port.requests sl.tag := by
  refine (h.work hw).drop fun v kind c => ?_
  rw [holds_with_slot (u := { s with slots := FMap.erase s.slots i }) (fun j => State.slotAt_of_erase rfl j) ht hc,
    h.holds_without_slot hw (t := { s with slots := FMap.erase s.slots i }) hs (fun j => State.slotAt_of_erase rfl j)
      (fun _ => rfl)]
  simp [htag]

theorem Coherent.matched_takeSlot {v : Octet} {kind : RequestKind} (h : Coherent w d (some v) s) (hw : w) {i : Nat}
    {sl : Slot} (hold : ∀ x, s.slotAt i = some x → x.tag = none)
    (ht : ∀ j, t.slotAt j = if j = i then some sl else s.slotAt j) (hc : ∀ j, t.contextAt j = s.contextAt j)
    (htag : sl.tag = some v) (hkind : sl.phase.request = some kind)
    (hr : ⟨v, kind, some sl.channel⟩ ∈ s.port.requests) : Matched t.Holds s.port.requests none := by
  have hu : ∀ v kind c, ({ s with slots := FMap.erase s.slots i } : State).Holds v kind c ↔ s.Holds v kind c := by
    intro v kind c
    cases hs : s.slotAt i with
    | none =>
      have hsame : ∀ j, ({ s with slots := FMap.erase s.slots i } : State).slotAt j = s.slotAt j := fun j => by
        rw [State.slotAt_of_erase rfl]
        split
        · subst_vars; exact hs.symm
        · rfl
      unfold State.Holds
      simp only [hsame]
      rfl
    | some x =>
      have hs' : ∀ j, s.slotAt j = if j = i then some x else s.slotAt j := fun j => by
        split
        · subst_vars; exact hs
        · rfl
      rw [holds_with_slot (u := { s with slots := FMap.erase s.slots i }) (fun j => State.slotAt_of_erase rfl j) hs'
        (fun _ => rfl)]
      simp [hold x hs]
  refine (h.work hw).take hr fun v' kind' c' => ?_
  rw [holds_with_slot (u := { s with slots := FMap.erase s.slots i }) (fun j => State.slotAt_of_erase rfl j) ht hc, hu,
    htag, hkind]
  simp only [Option.some.injEq, eq_comm]

/-- A slot's phase and entry change together (R2). -/
theorem Coherent.rephase (h : Coherent w d loose s) {i : Nat} {sl sl' : Slot} (hs : s.slotAt i = some sl)
    (hc : sl'.channel = sl.channel)
    (hwork : w → ∀ t : State, (∀ j, t.slotAt j = if j = i then some sl' else s.slotAt j) →
      (∀ j, t.contextAt j = s.contextAt j) → Matched t.Holds s.port.requests loose')
    (hsound : SlotSound s.station.number s.store.fifo sl → SlotSound s.station.number s.store.fifo sl') :
    Coherent w d loose' ((s.putSlot i sl').setEntry sl.channel
      ((s.entry sl.channel).toLocal sl'.phase.view s.station.number i)) := by
  obtain ⟨hview, hindex, hsub⟩ := h.entry_of_slot hs
  have hslots := State.slotAt_of_insert (s := s) (State.putSlot_slots s i sl')
  rw [← hc] at hindex hsub ⊢
  refine h.setSlot (sl := sl') (f := s.store.fifo) (h.slot_lt hs) (fun x hx => ?_) (fun j hj => ?_) hsub rfl
    (fun hw => hwork hw _ hslots fun _ => rfl)
    (fun hd => (h.drain hd).putSlot rfl rfl hs hslots hc (hsound ((h.drain hd).slots i sl hs)))
  · obtain rfl := Option.some.inj (hs.symm.trans hx)
    exact hc.symm
  · exact (Option.some.inj (hindex.symm.trans hj)).symm

/-- A slot freed, the FIFO changed with it: the entry has a view that is not local, and the slot's request is loose
(R24). -/
theorem Coherent.dropSlot (h : Coherent w d none s) {i : Nat} {sl : Slot} {e : ChannelEntry} {f : List FifoEntry}
    (hs : s.slotAt i = some sl) (hsub : e.subscribing = (s.entry sl.channel).subscribing)
    (hview : e.view.isLocal = false) (hindex : e.slotIndex = none) (hfree : e.view = .free ↔ e.owner = none)
    (ht : t = ({ s.setEntry sl.channel e with slots := FMap.erase s.slots i } : State).setFifo f)
    (hmarkers : d → ∀ c, .marker c ∈ f ↔ c ≠ sl.channel ∧ .marker c ∈ s.store.fifo)
    (hordered : d → MarkersOrdered f) : Coherent w d sl.tag t := by
  obtain ⟨hview', hindex', hsub'⟩ := h.entry_of_slot hs
  have hslots (j : Nat) : t.slotAt j = if j = i then none else s.slotAt j :=
    State.slotAt_of_erase (by rw [ht]; rfl) j
  have hentry (c : Channel) : t.entry c = if c = sl.channel then e else s.entry c := by
    rw [ht]
    exact State.entry_setEntry s sl.channel c e
  have hfifo : t.store.fifo = f := by rw [ht]; rfl
  subst ht
  obtain ⟨h1, h2, h3, h4, h5⟩ := h.tables
  refine ⟨⟨FMap.wf_erase h1 i, h2, h3, wf_putEntry h4 sl.channel.isLt _, h5⟩, ?_, ?_, fun hw => ?_, fun hd => ?_⟩
  · refine h.ownership.update (c := sl.channel) (i := i) rfl (fun c hc => by rw [hentry, if_neg hc])
      (fun j hj => (hslots j).trans (if_neg hj)) (fun x hx => ?_) (fun j hj => ?_)
      (.inr ⟨(hslots i).trans (if_pos rfl), ?_⟩)
    · obtain rfl := Option.some.inj (hs.symm.trans hx); rfl
    · exact (Option.some.inj (hindex'.symm.trans hj)).symm
    · rw [hentry, if_pos rfl]
      exact ⟨hview, hindex, hfree⟩
  · refine h.subscription.of_views rfl (fun c => ?_) (fun c hv => ?_)
    · rw [hentry]
      split
      · subst_vars; exact hsub
      · rfl
    · rw [hentry] at hv
      split at hv
      · rw [hview] at hv; cases hv
      · exact h.subscription.eq_none_of_local hv
  · exact (h.work hw).drop (h.holds_without_slot hw hs hslots (fun _ => rfl))
  · have hdrained := h.drain hd
    refine ⟨fun j x hx => ?_, fun c hc => ?_, hordered hd⟩
    · rw [hslots] at hx
      split at hx
      · cases hx
      · rename_i hj
        refine (hdrained.slots j x hx).of_fifo ?_
        rw [hfifo, hmarkers hd]
        exact and_iff_right fun hc => hj (h.ownership.index_eq hs hx hc)
    · obtain ⟨hne, hm⟩ := (hmarkers hd c).mp hc
      obtain ⟨j, x, hx, rfl⟩ := hdrained.markers c hm
      refine ⟨j, x, ?_, rfl⟩
      rw [hslots, if_neg, hx]
      rintro rfl
      obtain rfl := Option.some.inj (hs.symm.trans hx)
      exact hne rfl

/-! ### A context written with its entry, and a context freed -/

/-- A context and its channel's entry written together. -/
theorem Coherent.setContext (h : Coherent w d loose s) {i : Nat} {k : Context} (hi : i < 64)
    (hold : ∀ x, s.contextAt i = some x → x.channel = k.channel)
    (hindex : ∀ j, (s.entry k.channel).contextIndex = some j → j = i)
    (hview : (s.entry k.channel).view.isLocal = false)
    (ht : t = (s.putContext i k).setEntry k.channel ((s.entry k.channel).subscribed k.state.shown i))
    (hwork : w → Matched t.Holds s.port.requests loose') : Coherent w d loose' t := by
  subst ht
  have hcontexts := State.contextAt_of_insert (s := s) (State.putContext_contexts s i k)
  have hentry (c : Channel) : ((s.putContext i k).setEntry k.channel
      ((s.entry k.channel).subscribed k.state.shown i)).entry c =
        if c = k.channel then (s.entry k.channel).subscribed k.state.shown i else s.entry c :=
    State.entry_setEntry (s.putContext i k) k.channel c _
  obtain ⟨h1, h2, h3, h4, h5⟩ := h.tables
  refine ⟨⟨h1, FMap.wf_insert h2 hi _, h3, wf_putEntry h4 k.channel.isLt _, h5⟩, ?_, ?_, hwork, fun hd => ?_⟩
  · refine h.ownership.of_entries rfl rfl fun c => ?_
    rw [hentry]
    split
    · subst_vars; rfl
    · rfl
  · refine h.subscription.update (c := k.channel) (i := i) (fun c hc => by rw [hentry, if_neg hc]; exact ⟨rfl, rfl⟩)
      (fun j hj => (hcontexts j).trans (if_neg hj)) hold hindex (.inl ⟨k, (hcontexts i).trans (if_pos rfl), rfl, ?_⟩)
    rw [hentry, if_pos rfl]
    exact ⟨rfl, hview⟩
  · exact (h.drain hd).of_slots rfl rfl (fun j sl hs => .inl hs) (fun j sl hs _ => ⟨sl, hs, rfl⟩)

theorem Coherent.matched_keepContext (h : Coherent w d loose s) (hw : w) {i : Nat} {k k' : Context}
    (hs : s.contextAt i = some k) (ht : ∀ j, t.contextAt j = if j = i then some k' else s.contextAt j)
    (hc : ∀ j, t.slotAt j = s.slotAt j) (htag : k'.tag = k.tag) (hnone : k.tag = none) :
    Matched t.Holds s.port.requests loose := by
  have hs' : ∀ j, s.contextAt j = if j = i then some k else s.contextAt j := fun j => by
    split
    · subst_vars; exact hs
    · rfl
  refine (h.work hw).congr fun v kind c => ?_
  rw [holds_with_context (u := { s with contexts := FMap.erase s.contexts i }) (fun j => State.contextAt_of_erase rfl j)
      ht hc,
    holds_with_context (u := { s with contexts := FMap.erase s.contexts i }) (fun j => State.contextAt_of_erase rfl j)
      hs' (fun _ => rfl), htag, hnone]
  simp

theorem Coherent.matched_dropContext (h : Coherent w d none s) (hw : w) {i : Nat} {k k' : Context}
    (hs : s.contextAt i = some k) (ht : ∀ j, t.contextAt j = if j = i then some k' else s.contextAt j)
    (hc : ∀ j, t.slotAt j = s.slotAt j) (htag : k'.tag = none) : Matched t.Holds s.port.requests k.tag := by
  refine (h.work hw).drop fun v kind c => ?_
  rw [holds_with_context (u := { s with contexts := FMap.erase s.contexts i }) (fun j => State.contextAt_of_erase rfl j)
      ht hc,
    h.holds_without_context hw (t := { s with contexts := FMap.erase s.contexts i }) hs (fun _ => rfl)
      (fun j => State.contextAt_of_erase rfl j)]
  simp [htag]

theorem Coherent.matched_takeContext {v : Octet} {kind : RequestKind} (h : Coherent w d (some v) s) (hw : w) {i : Nat}
    {k : Context} (hold : ∀ x, s.contextAt i = some x → x.tag = none)
    (ht : ∀ j, t.contextAt j = if j = i then some k else s.contextAt j) (hc : ∀ j, t.slotAt j = s.slotAt j)
    (htag : k.tag = some v) (hkind : k.state.request = some kind)
    (hr : ⟨v, kind, some k.channel⟩ ∈ s.port.requests) : Matched t.Holds s.port.requests none := by
  have hu : ∀ v kind c,
      ({ s with contexts := FMap.erase s.contexts i } : State).Holds v kind c ↔ s.Holds v kind c := by
    intro v kind c
    cases hs : s.contextAt i with
    | none =>
      have hsame : ∀ j, ({ s with contexts := FMap.erase s.contexts i } : State).contextAt j = s.contextAt j :=
        fun j => by
          rw [State.contextAt_of_erase rfl]
          split
          · subst_vars; exact hs.symm
          · rfl
      unfold State.Holds
      simp only [hsame]
      rfl
    | some x =>
      have hs' : ∀ j, s.contextAt j = if j = i then some x else s.contextAt j := fun j => by
        split
        · subst_vars; exact hs
        · rfl
      rw [holds_with_context (u := { s with contexts := FMap.erase s.contexts i })
        (fun j => State.contextAt_of_erase rfl j) hs' (fun _ => rfl)]
      simp [hold x hs]
  refine (h.work hw).take hr fun v' kind' c' => ?_
  rw [holds_with_context (u := { s with contexts := FMap.erase s.contexts i }) (fun j => State.contextAt_of_erase rfl j)
    ht hc, hu, htag, hkind]
  simp only [Option.some.injEq, eq_comm]

/-- A context freed: its entry shows no subscription, and its request is loose (R66). -/
theorem Coherent.dropContext (h : Coherent w d none s) {i : Nat} {k : Context} (hs : s.contextAt i = some k)
    (ht : t = { s.setEntry k.channel (s.entry k.channel).unsubscribed with contexts := FMap.erase s.contexts i }) :
    Coherent w d k.tag t := by
  obtain ⟨hview, hindex, hsub⟩ := h.entry_of_context hs
  have hcontexts (j : Nat) : t.contextAt j = if j = i then none else s.contextAt j := by
    subst ht; exact State.contextAt_of_erase rfl j
  have hentry (c : Channel) : t.entry c = if c = k.channel then (s.entry k.channel).unsubscribed else s.entry c := by
    subst ht; exact State.entry_setEntry s k.channel c _
  have hslots : t.slots = s.slots := by subst ht; rfl
  have hnumber : t.station.number = s.station.number := by subst ht; rfl
  obtain ⟨h1, h2, h3, h4, h5⟩ := h.tables
  refine ⟨?_, ?_, ?_, fun hw => ?_, fun hd => ?_⟩
  · subst ht
    exact ⟨h1, FMap.wf_erase h2 i, h3, wf_putEntry h4 k.channel.isLt _, h5⟩
  · refine h.ownership.of_entries hslots hnumber fun c => ?_
    rw [hentry]
    split
    · subst_vars; rfl
    · rfl
  · refine h.subscription.update (c := k.channel) (i := i) (fun c hc => by rw [hentry, if_neg hc]; exact ⟨rfl, rfl⟩)
      (fun j hj => (hcontexts j).trans (if_neg hj)) (fun x hx => ?_) (fun j hj => ?_)
      (.inr ⟨(hcontexts i).trans (if_pos rfl), ?_⟩)
    · obtain rfl := Option.some.inj (hs.symm.trans hx); rfl
    · exact (Option.some.inj (hindex.symm.trans hj)).symm
    · rw [hentry, if_pos rfl]; rfl
  · have hrequests : t.port.requests = s.port.requests := by subst ht; rfl
    rw [hrequests]
    exact (h.work hw).drop (h.holds_without_context hw hs (State.slotAt_of_slots hslots) hcontexts)
  · exact (h.drain hd).of_slots hnumber (by subst ht; rfl) (fun j sl hs => .inl ((State.slotAt_of_slots hslots j) ▸ hs))
      (fun j sl hs _ => ⟨sl, (State.slotAt_of_slots hslots j).trans hs, rfl⟩)

/-! ### The FIFO -/

/-- A FIFO with the same markers in order keeps the invariant. -/
theorem Coherent.setFifo (h : Coherent w d loose s) {f : List FifoEntry}
    (hmarkers : d → ∀ c, .marker c ∈ f ↔ .marker c ∈ s.store.fifo) (hordered : d → MarkersOrdered f) :
    Coherent w d loose (s.setFifo f) := by
  obtain ⟨htab, hown, hsub, hwork, hdrain⟩ := h
  refine ⟨htab, hown, hsub, hwork, fun hd => ⟨fun j sl hs => ?_, fun c hc => ?_, hordered hd⟩⟩
  · exact ((hdrain hd).slots j sl hs).of_fifo (hmarkers hd _)
  · exact (hdrain hd).markers c ((hmarkers hd c).mp hc)

end

end Sys2Proof.Machine

/-! ## The shared operations keep the invariant -/

namespace Sys2Proof.Machine

/-! ### The station number -/

theorem number_of_settled {a b : StationController} (h : a.settled = b.settled) : a.number = b.number :=
  (StationController.of_settled h).2.1

@[simp] theorem State.testWithdrawal_number (s : State) : s.testWithdrawal.station.number = s.station.number :=
  number_of_settled (State.testWithdrawal_settled s)

@[simp] theorem State.complete_number (s : State) (tag : Octet) (e : Ending) :
    (s.complete tag e).station.number = s.station.number :=
  number_of_settled (State.complete_settled ..)

@[simp] theorem State.completeHeld_number (s : State) (tag : Option Octet) (e : Ending) :
    (s.completeHeld tag e).station.number = s.station.number :=
  number_of_settled (State.completeHeld_settled ..)

@[simp] theorem State.freeSlot_number (s : State) (i : Nat) (c : Channel) (x : Option Station) :
    (s.freeSlot i c x).station.number = s.station.number :=
  number_of_settled (State.freeSlot_settled ..)

@[simp] theorem State.freeContext_number (s : State) (i : Nat) (c : Channel) :
    (s.freeContext i c).station.number = s.station.number :=
  number_of_settled (State.freeContext_settled ..)

@[simp] theorem State.depart_number (s : State) (y : Station) (r : LostReason) (e : Octet) :
    (s.depart y r e).station.number = s.station.number :=
  number_of_settled (State.depart_settled ..)

/-! ### Markers in order -/

theorem MarkersOrdered.tail {e : FifoEntry} {rest : List FifoEntry} (h : MarkersOrdered (e :: rest)) :
    MarkersOrdered rest := (List.pairwise_cons.mp h).2

/-- A marker at the head is the only one of its channel. -/
theorem MarkersOrdered.head_not_mem {c : Channel} {rest : List FifoEntry} (h : MarkersOrdered (.marker c :: rest)) :
    .marker c ∉ rest := fun hm => ((List.pairwise_cons.mp h).1 _ hm c rfl).1 rfl

/-- An entry at the tail is in order when no marker of its channel stands before it. -/
theorem MarkersOrdered.append {fifo : List FifoEntry} (h : MarkersOrdered fifo) {e : FifoEntry}
    (he : ∀ c, .marker c ∈ fifo → e ≠ .marker c ∧ e.isDataOf c = false) : MarkersOrdered (fifo ++ [e]) := by
  refine List.pairwise_append.mpr ⟨h, List.pairwise_singleton .., ?_⟩
  rintro a ha b hb c rfl
  rw [List.mem_singleton.mp hb]
  exact he c ha

theorem MarkersOrdered.purge {fifo : List FifoEntry} (h : MarkersOrdered fifo) (c : Channel) :
    MarkersOrdered (FifoPurged c fifo) := by
  rw [FifoPurged_eq]
  refine List.Pairwise.filterMap _ (fun a b hab a' ha' b' hb' d hd => ?_) h
  obtain ⟨-, hmarker, -⟩ := purgeEntry_some ha'
  obtain ⟨-, hmarker', hdata, -⟩ := purgeEntry_some hb'
  have hold := hab d ((hmarker d).mp hd)
  exact ⟨fun hb => hold.1 ((hmarker' d).mp hb), (hdata d).trans hold.2⟩

/-- The head replaced by a DATA entry where a DATA entry was. -/
theorem MarkersOrdered.replaceData {e e' : FifoEntry} {rest : List FifoEntry} (h : MarkersOrdered (e :: rest))
    (he : e'.isData = true) : MarkersOrdered (e' :: rest) := by
  refine List.pairwise_cons.mpr ⟨?_, h.tail⟩
  rintro b - c rfl
  cases he

theorem marker_mem_cons_data {e : FifoEntry} (he : e.isData = true) {c : Channel} {rest : List FifoEntry} :
    .marker c ∈ e :: rest ↔ .marker c ∈ rest := by
  rw [List.mem_cons]
  refine or_iff_right fun h => ?_
  rw [← h] at he
  cases he

section
variable {w d : Prop} {loose : Option Octet} {s : State}

/-! ### Events, replies, requests -/

theorem Coherent.notify (h : Coherent w d loose s) (n : Notification) : Coherent w d loose (s.notify n) :=
  h.of_ground (by simp [State.ground])

theorem Coherent.testWithdrawal (h : Coherent w d loose s) : Coherent w d loose s.testWithdrawal :=
  h.of_ground (by simp [State.ground])

theorem Coherent.addReply (h : Coherent w d loose s) (kind : ReplyKind) (c : Channel) (x : Station) :
    Coherent w d loose (s.addReply kind c x) :=
  h.of_ground (by simp [State.ground])

theorem Coherent.purgeReplies (h : Coherent w d loose s) (c : Channel) : Coherent w d loose (s.purgeReplies c) :=
  h.of_ground (by simp [State.ground])

theorem State.requestWith_eq_none {s : State} {tag : Octet} :
    s.requestWith tag = none ↔ ∀ r ∈ s.port.requests, r.tag ≠ tag := by
  simp [State.requestWith]

/-- The loose request completes, whatever it was (R177). -/
theorem Coherent.complete {tag : Octet} (h : Coherent w d (some tag) s) (e : Ending) :
    Coherent w d none (s.complete tag e) := by
  obtain ⟨htab, hown, hsub, hwork, hdrain⟩ := h
  cases hr : s.requestWith tag with
  | none =>
    rw [State.complete_none e hr]
    exact ⟨htab, hown, hsub, fun hw => (hwork hw).of_absent (State.requestWith_eq_none.mp hr), hdrain⟩
  | some r =>
    have herased : Coherent w d none
        { s with port := { s.port with requests := s.port.requests.eraseP (fun q => q.tag = tag) } } :=
      ⟨htab, hown, hsub, fun hw => (hwork hw).complete, fun hd => ⟨(hdrain hd).1, (hdrain hd).2, (hdrain hd).3⟩⟩
    exact herased.of_ground (by simp [State.ground, State.complete_some e hr])

theorem Coherent.completeHeld {tag : Option Octet} (h : Coherent w d tag s) (e : Ending) :
    Coherent w d none (s.completeHeld tag e) := by
  cases tag with
  | none => exact h
  | some v => exact h.complete e

/-- A pending request of a station kind completes (R156, R160). -/
theorem Coherent.completeStation (h : Coherent w d none s) {kind : RequestKind} (hk : kind.ofStation) (e : Ending) :
    Coherent w d none (s.completeHeld (s.stationRequest kind) e) := by
  cases hr : s.port.requests.find? (fun r => r.kind = kind) with
  | none =>
    have hnone : s.stationRequest kind = none := by unfold State.stationRequest; rw [hr]; rfl
    rw [hnone]
    exact h
  | some r =>
    have hsome : s.stationRequest kind = some r.tag := by unfold State.stationRequest; rw [hr]; rfl
    have hkind : r.kind = kind := by simpa using List.find?_some hr
    rw [hsome]
    obtain ⟨htab, hown, hsub, hwork, hdrain⟩ := h
    refine Coherent.completeHeld ⟨htab, hown, hsub, fun hw => ?_, hdrain⟩ e
    exact (hwork hw).loosen (List.mem_of_find?_eq_some hr) (hkind ▸ hk)

theorem Coherent.enterWork (h : Coherent w d none s) {tag : Octet} {kind : RequestKind} {c : Option Channel}
    (hr : s.requestWith tag = none) (hk : ¬ kind.ofStation) :
    Coherent w d (some tag) (s.enterRequest tag kind c) := by
  obtain ⟨htab, hown, hsub, hwork, hdrain⟩ := h
  exact ⟨htab, hown, hsub, fun hw => (hwork hw).enterWork (State.requestWith_eq_none.mp hr) hk,
    fun hd => ⟨(hdrain hd).1, (hdrain hd).2, (hdrain hd).3⟩⟩

theorem Coherent.enterStation (h : Coherent w d none s) {tag : Octet} {kind : RequestKind}
    (hr : s.requestWith tag = none) (hk : kind.ofStation) : Coherent w d none (s.enterRequest tag kind none) := by
  obtain ⟨htab, hown, hsub, hwork, hdrain⟩ := h
  exact ⟨htab, hown, hsub, fun hw => (hwork hw).enterStation (State.requestWith_eq_none.mp hr) hk,
    fun hd => ⟨(hdrain hd).1, (hdrain hd).2, (hdrain hd).3⟩⟩

/-! ### Tags of states that serve no request -/

theorem Coherent.slotTag_none (h : Coherent w d loose s) (hw : w) {i : Nat} {sl : Slot} (hs : s.slotAt i = some sl)
    (hp : sl.phase = .held) : sl.tag = none := by
  cases ht : sl.tag with
  | none => rfl
  | some v =>
    obtain ⟨-, k, hk, -⟩ := (h.work hw).held v _ _ (.inl ⟨i, sl, hs, ht, rfl, rfl⟩)
    rw [hp] at hk
    cases hk

theorem Coherent.contextTag_none (h : Coherent w d loose s) (hw : w) {i : Nat} {k : Context}
    (hs : s.contextAt i = some k) (hp : k.state = .joined ∨ k.state = .draining) : k.tag = none := by
  cases ht : k.tag with
  | none => rfl
  | some v =>
    obtain ⟨-, x, hx, -⟩ := (h.work hw).held v _ _ (.inr ⟨i, k, hs, ht, rfl, rfl⟩)
    rcases hp with hp | hp <;> rw [hp] at hx <;> cases hx

/-! ### Slots and contexts freed -/

/-- A slot with no marker in the FIFO is freed: its request is loose (R24). -/
theorem Coherent.freeSlot (h : Coherent w d none s) {i : Nat} {sl : Slot} (hs : s.slotAt i = some sl)
    (hm : d → .marker sl.channel ∉ s.store.fifo) (x : Option Station) :
    Coherent w d sl.tag (s.freeSlot i sl.channel x) := by
  have hmarkers : d → ∀ c, .marker c ∈ s.store.fifo ↔ c ≠ sl.channel ∧ .marker c ∈ s.store.fifo := fun hd c =>
    (and_iff_right_of_imp (by rintro hc rfl; exact hm hd hc)).symm
  cases x with
  | none =>
    exact (h.dropSlot (e := (s.entry sl.channel).toFree) hs rfl rfl rfl (by simp [ChannelEntry.toFree]) rfl hmarkers
      fun hd => (h.drain hd).ordered).of_ground (by simp [State.ground, State.freeSlot])
  | some y =>
    exact (h.dropSlot (e := (s.entry sl.channel).toRemote y) hs rfl rfl rfl (by simp [ChannelEntry.toRemote]) rfl
      hmarkers fun hd => (h.drain hd).ordered).of_ground (by simp [State.ground, State.freeSlot])

theorem Coherent.freeContext (h : Coherent w d none s) {i : Nat} {k : Context} (hs : s.contextAt i = some k) :
    Coherent w d k.tag (s.freeContext i k.channel) :=
  (h.dropContext hs rfl).of_ground (by simp [State.ground, State.freeContext])

/-- A slot outside RELEASING, or one that owes RELEASE, has no marker in the FIFO. -/
theorem Coherent.no_marker (h : Coherent w d loose s) (hd : d) {i : Nat} {sl : Slot} (hs : s.slotAt i = some sl)
    (hp : sl.phase ≠ .releasing ∨ ∃ o, sl.owed = some o ∧ o.kind ≠ .announce) : .marker sl.channel ∉ s.store.fifo := by
  intro hm
  obtain ⟨hphase, howed⟩ := ((h.drain hd).slots i sl hs).marked hm
  rcases hp with hp | ⟨o, ho, hk⟩
  · exact hp hphase
  · exact hk (howed o ho)

/-! ### Markers consumed -/

theorem State.takeSnapshot_setFifo (s : State) (c : Channel) (f : List FifoEntry) :
    (s.setFifo f).takeSnapshot c = (s.takeSnapshot c).setFifo f := by
  unfold State.takeSnapshot
  have hsame : (s.setFifo f).slotOf c = s.slotOf c := rfl
  rw [hsame]
  cases s.slotOf c <;> rfl

/-- The markers at the FIFO's head are consumed one after another (R45). -/
theorem State.consumeMarkers_cons {s : State} {c : Channel} {rest : List FifoEntry}
    (hf : s.store.fifo = .marker c :: rest) :
    s.consumeMarkers = ((s.setFifo rest).takeSnapshot c).consumeMarkers := by
  have hfifo : ((s.setFifo rest).takeSnapshot c).store.fifo = rest := by simp
  unfold State.consumeMarkers
  rw [hfifo, hf, ← State.takeSnapshot_setFifo]
  rfl

/-- One marker consumed: its slot takes its snapshot (R45). -/
theorem Coherent.takeMarker (h : Coherent w d loose s) {c : Channel} {rest : List FifoEntry}
    (hf : s.store.fifo = .marker c :: rest) : Coherent w d loose ((s.setFifo rest).takeSnapshot c) := by
  cases hs : s.slotOf c with
  | none =>
    have hnone : (s.setFifo rest).takeSnapshot c = s.setFifo rest := by
      unfold State.takeSnapshot; rw [show (s.setFifo rest).slotOf c = none from hs]
    have hnot : ¬ d := fun hd => by
      obtain ⟨i, sl, hat, rfl⟩ := (h.drain hd).markers c (by rw [hf]; exact List.mem_cons_self ..)
      rw [State.slotOf_eq_some.mpr ⟨(h.entry_of_slot hat).2.1, hat⟩] at hs
      cases hs
    rw [hnone]
    exact h.setFifo (fun hd => absurd hd hnot) (fun hd => absurd hd hnot)
  | some row =>
    obtain ⟨i, sl⟩ := row
    obtain ⟨hat, rfl⟩ := h.ownership.of_slotOf hs
    have hsome : (s.setFifo rest).takeSnapshot sl.channel = (s.setFifo rest).putSlot i (s.snapshot sl) := by
      unfold State.takeSnapshot; rw [show (s.setFifo rest).slotOf sl.channel = some (i, sl) from hs]; rfl
    rw [hsome]
    have hfooting : (s.snapshot sl).footing = sl.footing := by unfold State.snapshot; split <;> rfl
    have hslots := State.slotAt_of_insert (s := s) (t := (s.setFifo rest).putSlot i (s.snapshot sl)) rfl
    obtain ⟨h1, h2⟩ := h.tables
    refine h.of_footing ⟨FMap.wf_insert h1 (h.slot_lt hat) _, h2⟩ rfl rfl rfl (fun j => ?_) (fun _ => rfl)
      fun _ hd => ?_
    · rw [hslots]
      split
      · subst_vars; rw [hat]; simp [hfooting]
      · rfl
    · obtain ⟨hsound, hmarkers, hordered⟩ := hd
      rw [hf] at hsound hmarkers hordered
      refine ⟨fun j x hx => ?_, fun c hc => ?_, hordered.tail⟩
      · rw [hslots] at hx
        split at hx
        · cases hx
          exact (hsound i sl hat).snapshot ((hsound i sl hat).marked (List.mem_cons_self ..)).1
            hordered.head_not_mem s
        · rename_i hj
          refine (hsound j x hx).of_fifo ?_
          rw [List.mem_cons]
          refine (or_iff_right fun he => hj ?_).symm
          exact h.ownership.index_eq hat hx (FifoEntry.marker.inj he)
      · obtain ⟨j, x, hx, rfl⟩ := hmarkers c (List.mem_cons_of_mem _ hc)
        by_cases hj : j = i
        · subst hj
          obtain rfl := Option.some.inj (hat.symm.trans hx)
          exact ⟨j, _, (hslots j).trans (if_pos rfl), congrArg Prod.fst hfooting⟩
        · exact ⟨j, x, (hslots j).trans ((if_neg hj).trans hx), rfl⟩

theorem Coherent.consumeMarkers (h : Coherent w d loose s) : Coherent w d loose s.consumeMarkers := by
  generalize hf : s.store.fifo = fifo
  induction fifo generalizing s with
  | nil => rw [State.consumeMarkers_none (by rw [hf]; rfl)]; exact h
  | cons e rest ih =>
    cases e with
    | data => rw [State.consumeMarkers_none (by rw [hf]; rfl)]; exact h
    | marker c =>
      rw [State.consumeMarkers_cons hf]
      exact ih (h.takeMarker hf) (by simp)

theorem Coherent.dropHeadData (h : Coherent w d loose s) : Coherent w d loose s.dropHeadData := by
  unfold State.dropHeadData
  split
  · rename_i c q p a wire purged rest hf
    have hset : Coherent w d loose (s.setFifo rest) := by
      refine h.setFifo (fun _ c' => ?_) (fun hd => ?_)
      · rw [hf, marker_mem_cons_data rfl]
      · have hordered := (h.drain hd).ordered
        rw [hf] at hordered
        exact hordered.tail
    exact Coherent.consumeMarkers (hset.of_ground rfl)
  · exact h

/-! ### A release begins -/

/-- The state of a release before any marker is consumed: the slot RELEASING, its view, and its marker at the FIFO's
tail (R43). -/
def State.markRelease (s : State) (i : Nat) (sl : Slot) (tag : Option Octet) : State :=
  ((s.putSlot i { sl with phase := .releasing, tag := tag }).setEntry sl.channel
    ((s.entry sl.channel).toLocal .releasing s.station.number i)).setFifo (s.store.fifo ++ [.marker sl.channel])

theorem State.startRelease_eq (s : State) (i : Nat) (sl : Slot) (tag : Option Octet) :
    s.startRelease i sl tag = (s.markRelease i sl tag).consumeMarkers := rfl

theorem State.markRelease_slotAt (s : State) (i : Nat) (sl : Slot) (tag : Option Octet) (j : Nat) :
    (s.markRelease i sl tag).slotAt j =
      if j = i then some { sl with phase := .releasing, tag := tag } else s.slotAt j :=
  State.slotAt_of_insert rfl j

theorem State.markRelease_entry (s : State) (i : Nat) (sl : Slot) (tag : Option Octet) (c : Channel) :
    (s.markRelease i sl tag).entry c =
      if c = sl.channel then (s.entry sl.channel).toLocal .releasing s.station.number i else s.entry c :=
  State.entry_setEntry (s.putSlot i { sl with phase := .releasing, tag := tag }) sl.channel c
    ((s.entry sl.channel).toLocal .releasing s.station.number i)

@[simp] theorem State.markRelease_fifo (s : State) (i : Nat) (sl : Slot) (tag : Option Octet) :
    (s.markRelease i sl tag).store.fifo = s.store.fifo ++ [.marker sl.channel] := rfl

/-- The drain law once a HELD slot's release is marked. -/
theorem Coherent.drained_markRelease (h : Coherent w d loose s) (hd : d) {i : Nat} {sl : Slot}
    (hs : s.slotAt i = some sl) (hp : sl.phase = .held) (tag : Option Octet) : Drained (s.markRelease i sl tag) := by
  obtain ⟨hsound, hmarkers, hordered⟩ := h.drain hd
  have hnot := ((hsound i sl hs).idle (by simp [hp])).2.2.2
  have hslots := s.markRelease_slotAt i sl tag
  refine ⟨fun j y hy => ?_, fun c hc => ?_, hordered.append fun c hc => ⟨fun he => hnot ?_, rfl⟩⟩
  · rw [hslots] at hy
    split at hy
    · cases hy
      exact (hsound i sl hs).release hp (by simp) tag
    · rename_i hj
      refine (hsound j y hy).of_fifo ?_
      rw [State.markRelease_fifo, List.mem_append, List.mem_singleton]
      exact or_iff_left fun he => hj (h.ownership.index_eq hs hy (FifoEntry.marker.inj he))
  · rw [State.markRelease_fifo, List.mem_append, List.mem_singleton] at hc
    rcases hc with hc | hc
    · obtain ⟨j, y, hy, rfl⟩ := hmarkers c hc
      by_cases hj : j = i
      · subst hj
        obtain rfl := Option.some.inj (hs.symm.trans hy)
        exact ⟨j, _, (hslots j).trans (if_pos rfl), rfl⟩
      · exact ⟨j, y, (hslots j).trans ((if_neg hj).trans hy), rfl⟩
    · cases hc
      exact ⟨i, _, (hslots i).trans (if_pos rfl), rfl⟩
  · rw [FifoEntry.marker.inj he]
    exact hc

/-- A release begins. The slot as the caller has it may be older than the slot in the table; where the drain law holds
it is the same. -/
theorem Coherent.beginRelease (h : Coherent w d loose s) {i : Nat} {x sl : Slot} {tag : Option Octet}
    {loose' : Option Octet} (hs : s.slotAt i = some x) (hx : x.footing = sl.footing) (hsame : d → x = sl)
    (hp : sl.phase = .held)
    (hwork : w → Matched (s.markRelease i sl tag).Holds s.port.requests loose') :
    Coherent w d loose' (s.startRelease i sl tag) := by
  have hc : x.channel = sl.channel := congrArg Prod.fst hx
  obtain ⟨-, hindex, hsub⟩ := h.entry_of_slot hs
  rw [hc] at hindex hsub
  rw [State.startRelease_eq]
  refine Coherent.consumeMarkers ?_
  refine h.setSlot (sl := { sl with phase := .releasing, tag := tag }) (h.slot_lt hs) (fun y hy => ?_) (fun j hj => ?_)
    hsub rfl hwork (fun hd => ?_)
  · obtain rfl := Option.some.inj (hs.symm.trans hy)
    exact hc
  · exact (Option.some.inj (hindex.symm.trans hj)).symm
  · obtain rfl := hsame hd
    exact h.drained_markRelease hd hs hp tag

/-- A release that no request asked for (R40, R158). -/
theorem Coherent.releaseUntagged (h : Coherent w d loose s) {i : Nat} {x sl : Slot} (hs : s.slotAt i = some x)
    (hx : x.footing = sl.footing) (hsame : d → x = sl) (hp : sl.phase = .held) :
    Coherent w d loose (s.startRelease i sl none) := by
  simp only [Slot.footing, Prod.mk.injEq] at hx
  refine h.beginRelease hs (by simp [Slot.footing, hx]) hsame hp fun hw => ?_
  have hnone := h.slotTag_none hw hs (hx.2.1.trans hp)
  exact h.matched_keepSlot hw hs (s.markRelease_slotAt i sl none) (fun _ => rfl) hnone.symm hx.1.symm (.inl hnone)

/-- A release that the loose request asked for (R43). -/
theorem Coherent.releaseTagged {v : Octet} (h : Coherent w d (some v) s) {i : Nat} {sl : Slot}
    (hs : s.slotAt i = some sl) (hp : sl.phase = .held)
    (hr : ⟨v, .release, some sl.channel⟩ ∈ s.port.requests) :
    Coherent w d none (s.startRelease i sl (some v)) := by
  refine h.beginRelease hs rfl (fun _ => rfl) hp fun hw => ?_
  refine h.matched_takeSlot (kind := .release) hw (fun y hy => ?_) (s.markRelease_slotAt i sl (some v)) (fun _ => rfl)
    rfl rfl hr
  obtain rfl := Option.some.inj (hs.symm.trans hy)
  exact h.slotTag_none hw hs hp

/-! ### Double ownership -/

theorem Coherent.yieldTo (h : Coherent w d none s) {i : Nat} {sl : Slot} (hs : s.slotAt i = some sl)
    (hp : sl.phase ≠ .releasing) (x : Station) : Coherent w d none (s.yieldTo i sl x) :=
  (h.freeSlot hs (fun hd => h.no_marker hd hs (.inl hp)) _).completeHeld _

theorem Coherent.loseChannel (h : Coherent w d none s) {i : Nat} {sl : Slot} (hs : s.slotAt i = some sl)
    (x : Station) : Coherent w d none (s.loseChannel i sl x) := by
  have hdropped := h.dropSlot (e := (s.entry sl.channel).toRemote x) (f := FifoPurged sl.channel s.store.fifo) hs rfl
    rfl
    rfl (by simp [ChannelEntry.toRemote]) rfl (fun _ _ => marker_mem_FifoPurged)
    (fun hd => (h.drain hd).ordered.purge _)
  have hpurged : Coherent w d sl.tag
      ((((s.freeSlot i sl.channel (some x)).purgeFifo sl.channel).purgeReplies sl.channel).consumeMarkers) :=
    (hdropped.of_ground
      (by simp [State.ground, State.freeSlot, State.purgeFifo, FifoPurged_eq])).consumeMarkers
  unfold State.loseChannel
  dsimp only
  split
  · exact hpurged.completeHeld _
  · exact (hpurged.notify _).completeHeld _

theorem Coherent.endRelease (h : Coherent w d none s) {i : Nat} {sl : Slot} (hs : s.slotAt i = some sl)
    (ho : ∃ o, sl.owed = some o ∧ o.kind ≠ .announce) (unannounced : Bool) :
    Coherent w d none (s.endRelease i sl unannounced) :=
  ((h.freeSlot hs (fun hd => h.no_marker hd hs (.inr ho)) _).purgeReplies _).completeHeld _

/-! ### Subscriptions that end or change -/

theorem Coherent.orphan (h : Coherent w d none s) {i : Nat} {k : Context} (hs : s.contextAt i = some k)
    (reason : OrphanReason) (x : Station) : Coherent w d none (s.orphan i k reason x) :=
  ((h.freeContext hs).notify _).completeHeld _

theorem Coherent.endJoin (h : Coherent w d none s) {i : Nat} {k : Context} (hs : s.contextAt i = some k) (e : Ending) :
    Coherent w d none (s.endJoin i k e) :=
  (h.freeContext hs).completeHeld _

/-- A context's state and entry change together. -/
theorem Coherent.restate {loose' : Option Octet} (h : Coherent w d loose s) {i : Nat} {k k' : Context}
    (hs : s.contextAt i = some k) (hc : k'.channel = k.channel)
    (hwork : w → ∀ t : State, (∀ j, t.contextAt j = if j = i then some k' else s.contextAt j) →
      (∀ j, t.slotAt j = s.slotAt j) → Matched t.Holds s.port.requests loose') :
    Coherent w d loose' ((s.putContext i k').setEntry k.channel ((s.entry k.channel).subscribed k'.state.shown i)) := by
  obtain ⟨hview, hindex, -⟩ := h.entry_of_context hs
  rw [← hc] at hview hindex ⊢
  refine h.setContext (h.context_lt hs) (fun x hx => ?_) (fun j hj => ?_) hview rfl
    (fun hw => hwork hw _ (State.contextAt_of_insert rfl) (fun _ => rfl))
  · obtain rfl := Option.some.inj (hs.symm.trans hx)
    exact hc.symm
  · exact (Option.some.inj (hindex.symm.trans hj)).symm

/-- A leave begins; the tag is the loose request's, or there is none (R75, R82). -/
theorem Coherent.startLeave (h : Coherent w d loose s) {i : Nat} {k : Context} (hs : s.contextAt i = some k)
    (hp : k.state = .joined ∨ k.state = .draining)
    (hr : ∀ v, loose = some v → ⟨v, .leave, some k.channel⟩ ∈ s.port.requests) :
    Coherent w d none (s.startLeave i k loose) := by
  refine h.restate (k' := k.leaving loose) hs rfl fun hw t hcontexts hslots => ?_
  have hnone := h.contextTag_none hw hs hp
  cases loose with
  | none => exact h.matched_keepContext hw hs hcontexts hslots hnone.symm hnone
  | some v =>
    refine h.matched_takeContext (kind := .leave) hw (fun x hx => ?_) hcontexts hslots rfl rfl (hr v rfl)
    obtain rfl := Option.some.inj (hs.symm.trans hx)
    exact hnone

end

end Sys2Proof.Machine

/-! ## The station as a whole and the messages heard keep the invariant -/

namespace Sys2Proof.Machine

/-- A fold over items that are current when their turn comes: P holds at the end. -/
theorem foldl_keeps {α : Type} {P : State → Prop} {Q : State → α → Prop} {R : α → α → Prop} {f : State → α → State}
    (hP : ∀ s a, P s → Q s a → P (f s a)) (hQ : ∀ s a b, P s → Q s a → R a b → Q s b → Q (f s a) b)
    {l : List α} (hl : l.Pairwise R) {s : State} (hs : P s) (hq : ∀ a ∈ l, Q s a) : P (l.foldl f s) := by
  induction l generalizing s with
  | nil => exact hs
  | cons a rest ih =>
    obtain ⟨ha, hrest⟩ := List.pairwise_cons.mp hl
    have hqa := hq a (List.mem_cons_self ..)
    exact ih hrest (hP s a hs hqa) fun b hb => hQ s a b hs hqa (ha b hb) (hq b (List.mem_cons_of_mem _ hb))

/-- The rows of a table in canonical form have different numbers. -/
theorem FMap.rows_pairwise {α : Type} {bound : Nat} {m : FMap α} (h : FMap.wf bound m = true) :
    List.Pairwise (fun a b : Nat × α => a.1 ≠ b.1) m :=
  List.pairwise_map.mp (FMap.keys_nodup h)

section
variable {w d : Prop} {loose : Option Octet} {s t : State}

/-! ### Peers and filters -/

theorem Coherent.setPeers (h : Coherent w d loose s) {m : FMap Peer} (hm : FMap.wf 64 m = true) :
    Coherent w d loose { s with peers := m } := by
  obtain ⟨⟨h1, h2, -, h4, h5⟩, hown, hsub, hwork, hdrain⟩ := h
  exact ⟨⟨h1, h2, hm, h4, h5⟩, hown, hsub, hwork, fun hd => ⟨(hdrain hd).1, (hdrain hd).2, (hdrain hd).3⟩⟩

theorem Coherent.insertPeer (h : Coherent w d loose s) (x : Station) (p : Peer) :
    Coherent w d loose { s with peers := FMap.insert s.peers x.toNat p } :=
  h.setPeers (FMap.wf_insert h.tables.wf_peers x.isLt p)

theorem Coherent.setFilter (h : Coherent w d loose s) {k : Nat} (hk : k < 4) (f : Filter) :
    Coherent w d loose (s.setFilter k f) := by
  obtain ⟨⟨h1, h2, h3, h4, h5⟩, hown, hsub, hwork, hdrain⟩ := h
  refine ⟨⟨h1, h2, h3, h4, ?_⟩, hown, hsub, hwork, fun hd => ⟨(hdrain hd).1, (hdrain hd).2, (hdrain hd).3⟩⟩
  show FMap.wf 4 (if f = Filter.initial then _ else _) = true
  split
  · exact FMap.wf_erase h5 k
  · exact FMap.wf_insert h5 hk f

/-! ### Departure -/

theorem Coherent.departContext (h : Coherent w d none s) {y : Station} {row : Nat × Context}
    (hs : s.contextAt row.1 = some row.2) : Coherent w d none (s.departContext y row) := by
  unfold State.departContext
  split
  · split
    · split
      · exact h.putContext hs rfl
      · exact h
    · exact h
  · split
    · exact h.orphan hs _ _
    · exact h

/-- The entries after a departure or after DETACHED: a HELD_REMOTE view may have become FREE (R19, R20). -/
theorem Coherent.mapEntries (h : Coherent w d loose s) {f : ChannelEntry → ChannelEntry}
    (hinitial : f ChannelEntry.initial = ChannelEntry.initial)
    (hf : ∀ e, f e = e ∨ (e.view = .heldRemote ∧ f e = e.toFree)) :
    Coherent w d loose { s with channels := Machine.mapEntries f s.channels } := by
  refine h.relearn (wf_mapEntries f h.tables.wf_channels) fun c => ?_
  rw [State.entry_of_mapEntries (s := s) hinitial rfl c]
  rcases hf (s.entry c) with hsame | ⟨hv, hfree⟩
  · rw [hsame]; exact ⟨rfl, .inl rfl⟩
  · rw [hfree]
    exact ⟨rfl, .inr ⟨by rw [hv]; rfl, rfl, rfl, by simp [ChannelEntry.toFree]⟩⟩

theorem Coherent.depart (h : Coherent w d none s) (y : Station) (reason : LostReason) (epoch : Octet) :
    Coherent w d none (s.depart y reason epoch) := by
  have hlost : Coherent w d none
      (({ s with peers := FMap.erase s.peers y.toNat } : State).notify (.peerLost y reason epoch)) :=
    (h.setPeers (FMap.wf_erase h.tables.wf_peers _)).notify _
  have hforgotten := (hlost.mapEntries (ChannelEntry.departed_initial y) fun e => by
    unfold ChannelEntry.departed
    split
    · rename_i he; exact .inr ⟨he.1, rfl⟩
    · exact .inl rfl).mapSlots (Slot.forget y)
      (fun sl => by unfold Slot.forget Slot.confirm; dsimp only; split <;> (try split) <;> rfl)
      (fun sl hsound => hsound.forget y)
  unfold State.depart
  dsimp only
  generalize hu : ({ ({ s with peers := FMap.erase s.peers y.toNat } : State).notify (.peerLost y reason epoch) with
    channels := Machine.mapEntries (ChannelEntry.departed y)
      (({ s with peers := FMap.erase s.peers y.toNat } : State).notify (.peerLost y reason epoch)).channels
    slots := FMap.mapValues (Slot.forget y)
      (({ s with peers := FMap.erase s.peers y.toNat } : State).notify (.peerLost y reason epoch)).slots } : State) = u
  have hcoherent : Coherent w d none u := by subst hu; exact hforgotten
  have hperm : u.subscribedChannels.Perm u.contexts := sortByKey_perm ..
  refine foldl_keeps (P := Coherent w d none) (Q := fun s row => s.contextAt row.1 = some row.2)
    (R := fun a b => a.1 ≠ b.1) (fun s row hs hq => hs.departContext hq) (fun s a b _ ha hab hb => ?_)
    ((hperm.pairwise_iff fun hab => hab.symm).mpr (FMap.rows_pairwise hcoherent.tables.wf_contexts)) hcoherent
    fun row hr => ?_
  · rw [State.departContext_contexts y s a.1 a.2 ha, if_neg (Ne.symm hab)]
    exact hb
  · exact FMap.find?_of_mem hcoherent.tables.wf_contexts (hperm.mem_iff.mp hr)

/-! ### DETACHED, MUTED, and a station that is cleared -/

theorem Coherent.enterDetached (h : Coherent w d loose s) : Coherent w d loose s.enterDetached := by
  have hmapped := h.mapEntries ChannelEntry.forgetRemote_initial fun e => by
    unfold ChannelEntry.forgetRemote
    split
    · rename_i he; exact .inr ⟨he, rfl⟩
    · exact .inl rfl
  exact (hmapped.setPeers (m := []) rfl).of_ground rfl

/-- With no slot, no context, no request and an empty FIFO, the laws are about the entries alone. -/
theorem Coherent.of_cleared (htables : TableLaw t) (hslots : t.slots = []) (hcontexts : t.contexts = [])
    (hrequests : t.port.requests = []) (hfifo : t.store.fifo = [])
    (hentries : ∀ c, (t.entry c).view.isLocal = false ∧ (t.entry c).slotIndex = none ∧
      ((t.entry c).view = .free ↔ (t.entry c).owner = none) ∧ (t.entry c).subscribing = (.none, none)) :
    Coherent w d loose t := by
  have hslot : ∀ j sl, t.slotAt j ≠ some sl := fun j sl => by unfold State.slotAt; rw [hslots]; simp
  have hcontext : ∀ j k, t.contextAt j ≠ some k := fun j k => by unfold State.contextAt; rw [hcontexts]; simp
  simp only [ChannelEntry.subscribing, Prod.mk.injEq, forall_and] at hentries
  obtain ⟨hremote, hindex, hfree, hsubscription, hcontextIndex⟩ := hentries
  have hlocal (c : Channel) (hv : (t.entry c).view.isLocal = true) : False := by
    rw [hremote c] at hv
    cases hv
  refine ⟨htables, ?_, ?_, fun _ => ?_, fun _ => ?_⟩
  · exact ⟨fun i sl hs => absurd hs (hslot i sl), fun c hv => (hlocal c hv).elim, fun c _ => hindex c, hfree⟩
  · exact ⟨fun i k hs => absurd hs (hcontext i k), fun c hv => absurd (hsubscription c) hv, fun c _ => hcontextIndex c,
      fun c _ => hsubscription c⟩
  · rw [hrequests]
    refine ⟨List.nodup_nil, ?_, by simp, by simp⟩
    rintro v kind c (⟨i, sl, hs, -⟩ | ⟨i, k, hs, -⟩)
    · exact absurd hs (hslot i sl)
    · exact absurd hs (hcontext i k)
  · refine ⟨fun i sl hs => absurd hs (hslot i sl), fun c hc => ?_, ?_⟩
    · rw [hfifo] at hc; cases hc
    · rw [hfifo]; exact List.Pairwise.nil

theorem Coherent.enterMuted {loose' : Option Octet} (h : Coherent w d loose s) (reason : MuteReason) :
    Coherent w d loose' (s.enterMuted reason) := by
  obtain ⟨-, -, h3, h4, h5⟩ := h.tables
  refine Coherent.of_cleared ?_ (by simp [State.enterMuted]) (by simp [State.enterMuted]) (by simp [State.enterMuted])
    (by simp [State.enterMuted]) fun c => ?_
  · refine ⟨?_, ?_, by simpa using h3, ?_, by simpa using h5⟩
    · simp [State.enterMuted, FMap.wf]
    · simp [State.enterMuted, FMap.wf]
    · simpa [State.enterMuted] using wf_mapEntries _ h4
  · obtain ⟨-, -, -, hentry, -⟩ := State.enterMuted_spec s reason
    rw [hentry]
    split
    · rename_i hv
      have hlocal : (s.entry c).view.isLocal = false := by rcases hv with hv | hv <;> rw [hv] <;> rfl
      exact ⟨hlocal, h.ownership.slotIndex_eq_none hlocal, h.ownership.free_iff c, rfl⟩
    · exact ⟨rfl, rfl, by simp, rfl⟩

theorem Coherent.restarted (h : Coherent w d none s) : Coherent w d none s.restarted := by
  obtain ⟨-, -, -, h4, h5⟩ := h.tables
  refine Coherent.of_cleared ⟨rfl, rfl, rfl, wf_mapEntries _ h4, h5⟩ rfl rfl rfl rfl fun c => ?_
  rw [State.entry_of_mapEntries (s := s) (f := ChannelEntry.restarted) (by decide) rfl c]
  exact ⟨rfl, rfl, iff_of_true rfl rfl, rfl⟩

theorem Coherent.afterReset (straps : Station) : Coherent w d none (State.afterReset straps) :=
  Coherent.of_cleared ⟨rfl, rfl, rfl, rfl, rfl⟩ rfl rfl rfl rfl fun _ => ⟨rfl, rfl, iff_of_true rfl rfl, rfl⟩

theorem Coherent.duplicateNumber (h : Coherent w d none s) : Coherent w d none s.duplicateNumber := by
  have hcounted : Coherent w d none { s with span := { s.span with duplicates := countUp s.span.duplicates } } :=
    h.of_ground rfl
  unfold State.duplicateNumber
  dsimp only
  split
  · exact (hcounted.completeStation (.inl rfl) _).enterDetached
  · exact hcounted.enterMuted _
  · exact hcounted.enterMuted _
  · exact hcounted
  · exact hcounted

/-! ### The Peer Table -/

theorem Coherent.arrive (h : Coherent w d none s) (hd : Header) (b : Body) : Coherent w d none (s.arrive hd b) :=
  (h.insertPeer hd.source _).notify _

theorem Coherent.peerTakes (h : Coherent w d none s) (hd : Header) (b : Body) :
    Coherent w d none (s.peerTakes hd b) := by
  unfold State.peerTakes
  split
  · split
    · exact h
    · exact h.arrive hd b
  · split
    · exact h.depart ..
    · split
      · exact h.insertPeer hd.source _
      · exact (h.depart ..).arrive hd b

theorem State.peerTakes_number (s : State) (h : Header) (b : Body) :
    (s.peerTakes h b).station.number = s.station.number := by
  unfold State.peerTakes
  (repeat' split) <;> simp

/-! ### The Channel Table -/

theorem Coherent.ownerChanges (h : Coherent w d none s) (c : Channel) (x : Station) :
    Coherent w d none (s.ownerChanges c x) := by
  unfold State.ownerChanges
  split
  · rename_i i k hk
    split
    · exact h.orphan (h.subscription.of_contextOf hk).1 _ _
    · exact h
  · exact h

/-- The phase of the slot that an entry leads to is the one its view shows (R2). -/
theorem Coherent.phase_of_slotOf (h : Coherent w d loose s) {c : Channel} {i : Nat} {sl : Slot}
    (hs : s.slotOf c = some (i, sl)) : s.slotAt i = some sl ∧ sl.channel = c ∧ (s.entry c).view = sl.phase.view := by
  obtain ⟨hat, rfl⟩ := h.ownership.of_slotOf hs
  exact ⟨hat, rfl, (h.entry_of_slot hat).1⟩

theorem Phase.claiming_of_view {p : Phase} (h : p.view = .claiming) : p = .claiming := by
  cases p <;> simp_all [Phase.view]

theorem Phase.held_of_view {p : Phase} (h : p.view = .heldLocal) : p = .held := by
  cases p <;> simp_all [Phase.view]

theorem Coherent.ownerIndicated (h : Coherent w d none s) (c : Channel) (x : Station) :
    Coherent w d none (s.ownerIndicated c x) := by
  have hconflict : ∀ i sl, s.slotOf c = some (i, sl) →
      Coherent w d none (if x < s.station.number then s.loseChannel i sl x else s.putSlot i sl.defend) := by
    intro i sl hs
    have hat := (h.phase_of_slotOf hs).1
    split
    · exact h.loseChannel hat x
    · refine h.putSlot hat ?_ fun hsound => hsound.defend
      unfold Slot.defend; split <;> rfl
  unfold State.ownerIndicated
  split
  · rename_i hv
    exact (h.setRemote (by rw [hv]; rfl) x).ownerChanges c x
  · rename_i hv
    exact (h.setRemote (by rw [hv]; rfl) x).ownerChanges c x
  · rename_i hv
    split
    · rename_i i sl hs
      obtain ⟨hat, -, hview⟩ := h.phase_of_slotOf hs
      have hp := Phase.claiming_of_view (hview.symm.trans hv)
      exact h.yieldTo hat (by simp [hp]) x
    · exact h
  all_goals
    split
    · exact hconflict _ _ ‹_›
    · exact h

theorem Coherent.channelTakes (h : Coherent w d none s) (hd : Header) (b : Body) :
    Coherent w d none (s.channelTakes hd b) := by
  unfold State.channelTakes
  split
  · exact h.ownerIndicated ..
  · split
    · rename_i hv
      exact h.setFree (by rw [hv.2.1]; rfl)
    · exact h

/-! ### The owner side -/

theorem Coherent.takeClaim (h : Coherent w d none s) (hd : Header) : Coherent w d none (s.takeClaim hd) := by
  unfold State.takeClaim
  split
  · rename_i hv
    split
    · rename_i i sl hs
      obtain ⟨hat, -, hview⟩ := h.phase_of_slotOf hs
      have hp := Phase.claiming_of_view (hview.symm.trans hv)
      split
      · exact (h.freeSlot hat (fun hd => h.no_marker hd hat (.inl (by simp [hp]))) _).completeHeld _
      · exact h
    · exact h
  · exact h.addReply ..
  · exact h.addReply ..
  · exact h.addReply ..
  · exact h
  · exact h

theorem Coherent.takeJoin (h : Coherent w d none s) {hd : Header} (h0 : hd.source ≠ 0) (h63 : hd.source ≠ 63)
    (hown : hd.source ≠ s.station.number) : Coherent w d none (s.takeJoin hd) := by
  unfold State.takeJoin
  split
  · exact h
  · split
    · rename_i hv
      split
      · rename_i i sl hs
        obtain ⟨hat, -, hview⟩ := h.phase_of_slotOf hs
        have hp := Phase.held_of_view (hview.symm.trans hv)
        refine Coherent.addReply ?_ ..
        exact h.putSlot hat rfl fun hsound => hsound.subscribe hp h0 h63 hown
      · exact h
    · exact h.addReply ..
    · exact h
    · exact h
    all_goals
      split
      · exact h.addReply ..
      · exact h

theorem Coherent.takeLeave (h : Coherent w d none s) (hd : Header) : Coherent w d none (s.takeLeave hd) := by
  have hforget : Coherent w d none
      (match s.slotOf hd.channel with
      | some (i, sl) => (s.putSlot i (sl.forget hd.source)).addReply .left hd.channel hd.source
      | none => s) := by
    split
    · rename_i i sl hs
      refine Coherent.addReply ?_ ..
      refine h.putSlot (h.phase_of_slotOf hs).1 ?_ fun hsound => hsound.forget _
      unfold Slot.forget Slot.confirm; dsimp only; split <;> (try split) <;> rfl
    · exact h
  unfold State.takeLeave
  split
  · exact h
  · split
    · exact hforget
    · exact hforget
    all_goals
      split
      · exact h.addReply ..
      · exact h

theorem Coherent.takeDrained (h : Coherent w d none s) (hd : Header) : Coherent w d none (s.takeDrained hd) := by
  unfold State.takeDrained
  split
  · split
    · rename_i i sl hs
      split
      · refine h.putSlot (h.phase_of_slotOf hs).1 ?_ fun hsound => hsound.confirm _
        unfold Slot.confirm; dsimp only; split <;> (try split) <;> rfl
      · exact h
    · exact h
  · exact h

/-! ### The consumer side -/

/-- A context's state changes and its request is answered: the request is loose (R72). -/
theorem Coherent.endTag (h : Coherent w d none s) {i : Nat} {k k' : Context} (hat : s.contextAt i = some k)
    (hc : k'.channel = k.channel) (ht : k'.tag = none) :
    Coherent w d k.tag
      ((s.putContext i k').setEntry k.channel ((s.entry k.channel).subscribed k'.state.shown i)) :=
  h.restate hat hc fun hw _ hcontexts hslots => h.matched_dropContext hw hat hcontexts hslots ht

theorem Coherent.takeAdmit (h : Coherent w d none s) (hd : Header) (next : Seq) :
    Coherent w d none (s.takeAdmit hd next) := by
  unfold State.takeAdmit
  split
  · split
    · rename_i i k hk
      obtain ⟨hat, hc⟩ := h.subscription.of_contextOf hk
      rw [← hc]
      split
      · refine Coherent.completeHeld ?_ _
        exact h.endTag hat rfl rfl
      · exact h
    · split
      · exact h
      · exact h.addReply ..
  · exact h

theorem Coherent.takeDenyReleasing (h : Coherent w d none s) (hd : Header) :
    Coherent w d none (s.takeDenyReleasing hd) := by
  unfold State.takeDenyReleasing
  split
  · split
    · rename_i i k hk
      split
      · exact h.endJoin (h.subscription.of_contextOf hk).1 _
      · exact h
    · exact h
  · exact h

theorem Coherent.takeDenyNotOwner (h : Coherent w d none s) (hd : Header) :
    Coherent w d none (s.takeDenyNotOwner hd) := by
  unfold State.takeDenyNotOwner
  split
  · split
    · rename_i i k hk
      have hat := (h.subscription.of_contextOf hk).1
      split
      · rename_i hv
        have hfree := h.setFree (c := hd.channel) (by rw [hv.2.1]; rfl)
        dsimp only
        split
        · exact hfree.endJoin hat _
        · split
          · exact hfree
          · exact hfree.putContext hat rfl
      · exact h
    · exact h
  · exact h

theorem Coherent.takeLeft (h : Coherent w d none s) (hd : Header) : Coherent w d none (s.takeLeft hd) := by
  unfold State.takeLeft
  split
  · split
    · rename_i i k hk
      split
      · exact (h.freeContext (h.subscription.of_contextOf hk).1).completeHeld _
      · exact h
    · exact h
  · exact h

theorem Context.oweDrained_footing (k : Context) : k.oweDrained.footing = k.footing := by
  unfold Context.oweDrained; split <;> rfl

/-- A JOINED context becomes DRAINING (R57). -/
theorem Coherent.beginDrain (h : Coherent w d none s) {i : Nat} {k k' : Context} (hat : s.contextAt i = some k)
    (hp : k.state = .joined) (hf : k'.footing = (k.channel, .draining, k.tag)) :
    Coherent w d none
      ((s.putContext i k').setEntry k.channel ((s.entry k.channel).subscribed .draining i)) := by
  simp only [Context.footing, Prod.mk.injEq] at hf
  obtain ⟨hc, hs, ht⟩ := hf
  have hrestated := h.restate (k' := k') (loose' := none) hat hc fun hw t hcontexts hslots =>
    h.matched_keepContext hw hat hcontexts hslots ht (h.contextTag_none hw hat (.inl hp))
  rw [hs] at hrestated
  exact hrestated

theorem Coherent.takeDrain (h : Coherent w d none s) (hd : Header) : Coherent w d none (s.takeDrain hd) := by
  unfold State.takeDrain
  split
  · rename_i i k hk
    obtain ⟨hat, hc⟩ := h.subscription.of_contextOf hk
    rw [← hc]
    split
    · split
      · rename_i hp
        refine h.beginDrain hat hp ?_
        split
        · rw [Context.oweDrained_footing]; rfl
        · rfl
      · split
        · exact h.putContext hat k.oweDrained_footing
        · exact h
      · exact h
      · exact h
    · exact h
  · exact h

theorem Coherent.takeRelease (h : Coherent w d none s) (hd : Header) : Coherent w d none (s.takeRelease hd) := by
  unfold State.takeRelease
  split
  · rename_i i k hk
    split
    · exact ((h.freeContext (h.subscription.of_contextOf hk).1).notify _).completeHeld _
    · exact h
  · exact h

/-! ### The Classifier -/

theorem Coherent.offer (h : Coherent w d loose s) (q : QueueName) (c : Descriptor) :
    Coherent w d loose (s.offer q c) := by
  unfold State.offer
  dsimp only
  split
  · refine Coherent.setEntry (h.of_ground ?_) rfl (.inl rfl)
    simp [State.ground]
  · have hdropped : Coherent w d loose (s.setQueue q { s.store.queue q with
        drops := countUp (s.store.queue q).drops, overflowNotified := true }) := h.of_ground (by simp [State.ground])
    split
    · exact hdropped
    · exact hdropped.notify _

theorem Coherent.routeCell (h : Coherent w d none s) (hd : Header) (q : Seq) (payload : List Octet)
    (missing : Option Nat) : Coherent w d none (s.routeCell hd q payload missing) := by
  unfold State.routeCell
  dsimp only
  split
  · exact h
  · split
    · exact h.offer ..
    · split
      · exact h.offer ..
      · split
        · exact h.offer ..
        · split
          · exact h.of_ground rfl
          · exact h

theorem Coherent.classify (h : Coherent w d none s) (hd : Header) (q : Seq) (payload : List Octet) :
    Coherent w d none (s.classify hd q payload) := by
  unfold State.classify
  split
  · rename_i i k e hk
    split
    · exact h.of_ground rfl
    · obtain ⟨⟨j, x⟩, hof, hx⟩ := Option.bind_eq_some_iff.mp hk
      obtain ⟨e', -, he⟩ := Option.map_eq_some_iff.mp hx
      simp only [Prod.mk.injEq] at he
      obtain ⟨rfl, rfl, rfl⟩ := he
      refine Coherent.routeCell ?_ ..
      exact h.putContext (h.subscription.of_contextOf hof).1 rfl
  · exact h.routeCell ..

/-! ### The receiver -/

theorem Coherent.consume (h : Coherent w d none s) {hd : Header} (h0 : hd.source ≠ 0) (h63 : hd.source ≠ 63) {b : Body}
    (hown : b = .join → hd.source ≠ s.station.number) : Coherent w d none (s.consume hd b) := by
  cases b with
  | claim => exact h.takeClaim hd
  | hold => exact h
  | announce => exact h
  | join => exact h.takeJoin h0 h63 (hown rfl)
  | admission next => exact h.takeAdmit hd next
  | deny reason =>
    cases reason with
    | releasing => exact h.takeDenyReleasing hd
    | notOwner => exact h.takeDenyNotOwner hd
  | leave => exact h.takeLeave hd
  | left => exact h.takeLeft hd
  | drain => exact h.takeDrain hd
  | drained => exact h.takeDrained hd
  | release => exact h.takeRelease hd
  | data q payload => exact h.classify hd q payload
  | beacon => exact h

theorem Coherent.hear (h : Coherent w d none s) {hd : Header} (hvalid : hd.valid = true)
    (hown : hd.source ≠ s.station.number) (b : Body) : Coherent w d none (s.hear hd b) := by
  by_cases hb : ∃ interval, b = .beacon interval
  · obtain ⟨interval, rfl⟩ := hb
    exact h.peerTakes hd _
  · rw [State.hear_eq (not_exists.mp hb)]
    simp only [Header.valid, ne_eq, Bool.and_eq_true, decide_eq_true_eq] at hvalid
    refine ((h.peerTakes hd b).channelTakes hd b).consume hvalid.1.1 hvalid.1.2 ?_
    rintro rfl
    rw [State.channelTakes_other rfl (by simp), State.peerTakes_number]
    exact hown

theorem Coherent.receive (h : Coherent w d none s) (hd : Header) (body : Option Body) :
    Coherent w d none (s.receive hd body) := by
  unfold State.receive
  split
  · exact h
  · split
    · exact h.of_ground rfl
    · rename_i b
      by_cases hvalid : hd.valid = true
      · rw [if_neg (by simp [hvalid])]
        split
        · split
          · exact h
          · exact h.duplicateNumber
        · exact h.hear hvalid ‹_› b
      · rw [if_pos (by simpa using hvalid)]
        exact h.of_ground rfl

end

end Sys2Proof.Machine

/-! ## Requests, timers and transmissions keep the invariant -/

namespace Sys2Proof.Machine

section
variable {w d : Prop} {loose : Option Octet} {s : State}

/-- Which request is loose matters only where requests and work are asked for. -/
theorem Coherent.of_loose {loose' : Option Octet} (h : Coherent w d loose s) (hl : w → loose = loose') :
    Coherent w d loose' s := by
  obtain ⟨htab, hown, hsub, hwork, hdrain⟩ := h
  exact ⟨htab, hown, hsub, fun hw => hl hw ▸ hwork hw, hdrain⟩

/-! ### Transactions and checks -/

theorem Coherent.transact (h : Coherent w d none s) {effect : State → State}
    (he : Coherent w d none (effect s)) : Coherent w d none (s.transact effect) := by
  unfold State.transact
  split
  · exact h
  · split
    · exact h.of_ground rfl
    · exact he

theorem Coherent.respond (h : Coherent w d loose s) (r : Result) (data : List Octet) :
    Coherent w d loose (s.respond r data) := h.of_ground rfl

/-- Every check passes. -/
theorem firstFailing_eq_none {l : Checks} (h : firstFailing l = none) : ∀ x ∈ l, x.1 = false := by
  induction l with
  | nil => simp
  | cons x rest ih =>
    obtain ⟨failed, r⟩ := x
    unfold firstFailing at h
    split at h
    · cases h
    · rename_i hf
      rintro y hy
      rcases List.mem_cons.mp hy with rfl | hy
      · simpa using hf
      · exact ih h y hy

/-- A long request that passes its checks has a fresh tag (R176). -/
theorem requestWith_of_checks {tag : Octet} {more : Checks}
    (h : firstFailing (List.append (s.longChecks tag) more) = none) : s.requestWith tag = none := by
  have := firstFailing_eq_none h ((s.requestWith tag).isSome, .tagInUse) (by simp [State.longChecks])
  simpa using this

/-- A request's own checks pass too. -/
theorem check_passes {common more : Checks} (h : firstFailing (List.append common more) = none) :
    ∀ x ∈ more, x.1 = false :=
  fun x hx => firstFailing_eq_none h x (List.mem_append_right common hx)

/-! ### CLAIM and JOIN -/

theorem Coherent.acceptClaim (h : Coherent w d none s) {tag : Octet} {c : Channel} {i : Nat}
    (hr : s.requestWith tag = none) (hview : (s.entry c).view.isLocal = false)
    (hsub : (s.entry c).subscription = .none) (hi : FMap.lowestFree s.slots Config.slotCount = some i) :
    Coherent w d none (s.acceptClaim tag c i) := by
  obtain ⟨hlt, hfree⟩ := FMap.lowestFree_spec hi
  have hentered := h.enterWork (kind := .claim) (c := some c) hr (by simp [RequestKind.ofStation])
  have hslots (j : Nat) : (s.acceptClaim tag c i).slotAt j = if j = i then some (.allocated c tag) else s.slotAt j :=
    State.slotAt_of_insert rfl j
  have hnone : ∀ x, s.slotAt i ≠ some x := fun x hx => by
    rw [State.slotAt, hfree] at hx; cases hx
  refine hentered.setSlot (sl := .allocated c tag) (f := s.store.fifo) hlt (fun x hx => absurd hx (hnone x))
    (fun j hj => ?_) hsub rfl (fun hw => ?_) (fun hd => ?_)
  · have hindex : (s.entry c).slotIndex = none := h.ownership.slotIndex_eq_none hview
    exact absurd (hindex.symm.trans hj) (by simp)
  · exact hentered.matched_takeSlot (kind := .claim) hw (fun x hx => absurd hx (hnone x)) hslots (fun _ => rfl) rfl rfl
      (by simp [Slot.allocated])
  · have hmarker : .marker c ∉ s.store.fifo := fun hm => by
      obtain ⟨j, x, hx, rfl⟩ := (h.drain hd).markers c hm
      rw [(h.entry_of_slot hx).1, Phase.view_isLocal] at hview
      cases hview
    refine (h.drain hd).of_slots rfl rfl (fun j x hx => ?_) (fun j x hx _ => ⟨x, ?_, rfl⟩)
    · rw [show State.slotAt _ j = _ from hslots j] at hx
      split at hx
      · cases hx
        exact .inr (SlotSound.of_idle (by simp [Slot.allocated]) (by simp [Slot.allocated]) (by simp [Slot.allocated])
          rfl rfl rfl hmarker (by simp [Slot.allocated]))
      · exact .inl hx
    · refine (hslots j).trans ((if_neg ?_).trans hx)
      rintro rfl
      exact hnone x hx

theorem Coherent.acceptJoin (h : Coherent w d none s) {tag : Octet} {c : Channel} {i : Nat}
    (hr : s.requestWith tag = none) (hview : (s.entry c).view.isLocal = false)
    (hsub : (s.entry c).subscription = .none) (hi : FMap.lowestFree s.contexts Config.contextCount = some i) :
    Coherent w d none (s.acceptJoin tag c i) := by
  obtain ⟨hlt, hfree⟩ := FMap.lowestFree_spec hi
  have hentered := h.enterWork (kind := .join) (c := some c) hr (by simp [RequestKind.ofStation])
  have hcontexts (j : Nat) : (s.acceptJoin tag c i).contextAt j =
      if j = i then some (.allocated c (s.entry c).joinDestination tag) else s.contextAt j :=
    State.contextAt_of_insert rfl j
  have hnone : ∀ x, s.contextAt i ≠ some x := fun x hx => by
    rw [State.contextAt, hfree] at hx; cases hx
  refine hentered.setContext (k := .allocated c (s.entry c).joinDestination tag) hlt
    (fun x hx => absurd hx (hnone x)) (fun j hj => ?_) hview rfl (fun hw => ?_)
  · have hindex : (s.entry c).contextIndex = none := h.subscription.contextIndex_eq_none hsub
    exact absurd (hindex.symm.trans hj) (by simp)
  · exact hentered.matched_takeContext (kind := .join) hw (fun x hx => absurd hx (hnone x)) hcontexts (fun _ => rfl) rfl
      rfl (by simp [Context.allocated])

theorem Coherent.claimRequest (h : Coherent w d none s) {tag : Octet} {channel : Half}
    (hc : firstFailing (s.claimChecks tag channel) = none) :
    Coherent w d none
      (s.acceptClaim tag (toChannel channel) ((FMap.lowestFree s.slots Config.slotCount).getD 0)) := by
  have hpass := check_passes hc
  simp only [List.mem_cons, List.not_mem_nil, or_false, forall_eq_or_imp, forall_eq, decide_eq_false_iff_not,
    Bool.or_eq_false_iff, ne_eq, not_not] at hpass
  obtain ⟨-, -, hheld, hbusy, hsub, hslot⟩ := hpass
  obtain ⟨i, hi⟩ := Option.isSome_iff_exists.mp (Option.isNone_eq_false_iff.mp hslot)
  rw [hi]
  refine h.acceptClaim (requestWith_of_checks hc) ?_ hsub hi
  cases hv : (s.entry (toChannel channel)).view <;> simp_all [View.isLocal]

theorem Coherent.joinRequest (h : Coherent w d none s) {tag : Octet} {channel : Half}
    (hc : firstFailing (s.joinChecks tag channel) = none) :
    Coherent w d none
      (s.acceptJoin tag (toChannel channel) ((FMap.lowestFree s.contexts Config.contextCount).getD 0)) := by
  have hpass := check_passes hc
  simp only [List.mem_cons, List.not_mem_nil, or_false, forall_eq_or_imp, forall_eq, decide_eq_false_iff_not, ne_eq,
    not_not] at hpass
  obtain ⟨-, -, hview, hsub, hcontext⟩ := hpass
  obtain ⟨i, hi⟩ := Option.isSome_iff_exists.mp (Option.isNone_eq_false_iff.mp hcontext)
  rw [hi]
  exact h.acceptJoin (requestWith_of_checks hc) hview hsub hi

/-! ### RELEASE, SEND and LEAVE -/

theorem State.takeSnapshot_enterRequest (s : State) (x : Channel) (tag : Octet) (kind : RequestKind)
    (c : Option Channel) :
    (s.enterRequest tag kind c).takeSnapshot x = (s.takeSnapshot x).enterRequest tag kind c := by
  unfold State.takeSnapshot
  have hsame : (s.enterRequest tag kind c).slotOf x = s.slotOf x := rfl
  rw [hsame]
  cases s.slotOf x <;> rfl

/-- A request entered before the release begins, or after it. -/
theorem State.startRelease_enterRequest (s : State) (i : Nat) (sl : Slot) (t : Option Octet) (tag : Octet)
    (kind : RequestKind) (c : Option Channel) :
    (s.startRelease i sl t).enterRequest tag kind c = (s.enterRequest tag kind c).startRelease i sl t := by
  have hfold : ∀ (l : List Channel) (u : State), (l.foldl State.takeSnapshot u).enterRequest tag kind c =
      l.foldl State.takeSnapshot (u.enterRequest tag kind c) := by
    intro l
    induction l with
    | nil => intro u; rfl
    | cons x rest ih =>
      intro u
      rw [List.foldl_cons, List.foldl_cons, ih, State.takeSnapshot_enterRequest]
  unfold State.startRelease State.consumeMarkers
  exact hfold ..

theorem Coherent.releaseRequest (h : Coherent w d none s) {tag : Octet} {channel : Half}
    (hc : firstFailing (s.releaseChecks tag channel) = none) :
    Coherent w d none (s.acceptRelease tag (toChannel channel)) := by
  have hpass := check_passes hc
  simp only [List.mem_cons, List.not_mem_nil, or_false, forall_eq_or_imp, forall_eq, decide_eq_false_iff_not,
    Bool.or_eq_false_iff, ne_eq, not_not] at hpass
  obtain ⟨-, -, hview, -⟩ := hpass
  have hentered := h.enterWork (kind := .release) (c := some (toChannel channel)) (requestWith_of_checks hc)
    (by simp [RequestKind.ofStation])
  unfold State.acceptRelease
  split
  · rename_i i sl hs
    obtain ⟨hat, hchannel, hphase⟩ := h.phase_of_slotOf hs
    rw [State.startRelease_enterRequest]
    exact hentered.releaseTagged hat (Phase.held_of_view (hphase.symm.trans hview)) (by simp [hchannel])
  · exact h

theorem Coherent.leaveRequest (h : Coherent w d none s) {tag : Octet} {channel : Half}
    (hc : firstFailing (s.leaveChecks tag channel) = none) :
    Coherent w d none (s.acceptLeave tag (toChannel channel)) := by
  have hpass := check_passes hc
  simp only [List.mem_cons, List.not_mem_nil, or_false, forall_eq_or_imp, forall_eq, decide_eq_false_iff_not,
    Bool.or_eq_false_iff] at hpass
  obtain ⟨-, ⟨⟨-, hjoining⟩, -⟩, hleaving⟩ := hpass
  have hentered := h.enterWork (kind := .leave) (c := some (toChannel channel)) (requestWith_of_checks hc)
    (by simp [RequestKind.ofStation])
  unfold State.acceptLeave
  split
  · rename_i i k hk
    obtain ⟨hat, hchannel⟩ := h.subscription.of_contextOf hk
    have hshown := (h.entry_of_context hat).2.2
    rw [hchannel] at hshown
    have hstate : k.state = .joined ∨ k.state = .draining := by
      cases hst : k.state <;> simp_all [ContextState.shown]
    refine hentered.startLeave hat hstate fun v hv => ?_
    obtain rfl := Option.some.inj hv
    simp [hchannel]
  · exact h

theorem Coherent.acceptSend (h : Coherent w d none s) {c : Channel} (hview : (s.entry c).view = .heldLocal)
    (payload : List Octet) : Coherent w d none (s.acceptSend c payload) := by
  unfold State.acceptSend
  split
  · rename_i i sl q hs
    obtain ⟨⟨j, x⟩, hof, hx⟩ := Option.bind_eq_some_iff.mp hs
    obtain ⟨q', -, hq⟩ := Option.map_eq_some_iff.mp hx
    simp only [Prod.mk.injEq] at hq
    obtain ⟨rfl, rfl, rfl⟩ := hq
    obtain ⟨hat, rfl, hphase⟩ := h.phase_of_slotOf hof
    have hheld := Phase.held_of_view (hphase.symm.trans hview)
    have hput : Coherent w d none (s.putSlot j { x with transmitSequence := some (q' + 1) }) :=
      h.putSlot hat rfl fun hsound => hsound.of_same rfl rfl rfl rfl Iff.rfl Iff.rfl rfl
    have hfifo : Coherent w d none ((s.putSlot j { x with transmitSequence := some (q' + 1) }).setFifo
        (s.store.fifo ++ [.data x.channel q' payload 0 false false])) := by
      refine hput.setFifo (fun _ c' => by simp) (fun hd => ?_)
      refine (h.drain hd).ordered.append fun c' hc' => ⟨by simp, ?_⟩
      refine decide_eq_false ?_
      rintro rfl
      exact h.no_marker hd hat (.inl (by simp [hheld])) hc'
    exact hfifo.of_ground rfl
  · exact h

theorem Coherent.sendRequest (h : Coherent w d none s) {channel : Half} {length : Octet}
    (hc : firstFailing (s.sendChecks channel length) = none) (payload : List Octet) :
    Coherent w d none (s.acceptSend (toChannel channel) payload) := by
  have hpass := firstFailing_eq_none hc
  simp only [State.sendChecks, List.mem_cons, List.not_mem_nil, or_false, forall_eq_or_imp, forall_eq,
    decide_eq_false_iff_not, Bool.or_eq_false_iff, ne_eq, not_not] at hpass
  obtain ⟨-, -, ⟨hview, -⟩, -⟩ := hpass
  exact h.acceptSend hview payload

/-! ### WITHDRAW -/

/-- The slot or the context that a piece of abandoned work names is the one in the table. -/
def Abandoned.Current (s : State) : Abandoned → Prop
  | .claim i sl => s.slotAt i = some sl ∧ sl.phase = .claiming
  | .join i k => s.contextAt i = some k

/-- Two pieces of work are not in the same slot and not in the same context. -/
def Abandoned.Apart : Abandoned → Abandoned → Prop
  | .claim i _, .claim j _ => i ≠ j
  | .join i _, .join j _ => i ≠ j
  | .claim _ _, .join _ _ => True
  | .join _ _, .claim _ _ => True

theorem Abandoned.Apart.symm {a b : Abandoned} (h : a.Apart b) : b.Apart a := by
  match a, b with
  | .claim _ _, .claim _ _ => exact Ne.symm h
  | .join _ _, .join _ _ => exact Ne.symm h
  | .claim _ _, .join _ _ => trivial
  | .join _ _, .claim _ _ => trivial

theorem Coherent.abandon (h : Coherent w d none s) {a : Abandoned} (ha : a.Current s) :
    Coherent w d none (s.abandon a) := by
  cases a with
  | claim i sl =>
    obtain ⟨hat, hp⟩ := ha
    exact (h.freeSlot hat (fun hd => h.no_marker hd hat (.inl (by simp [hp]))) _).completeHeld _
  | join i k => exact (h.freeContext ha).completeHeld _

theorem Abandoned.Current.abandon {a b : Abandoned} (hb : b.Current s) (hab : a.Apart b) : b.Current (s.abandon a) := by
  cases a with
  | claim i sl =>
    have hslots : (s.abandon (.claim i sl)).slots = FMap.erase s.slots i := by simp [State.abandon, State.freeSlot]
    have hcontexts : (s.abandon (.claim i sl)).contexts = s.contexts := by simp [State.abandon]
    cases b with
    | claim j x => exact ⟨(State.slotAt_of_erase hslots j).trans ((if_neg (Ne.symm hab)).trans hb.1), hb.2⟩
    | join j x => exact (State.contextAt_of_contexts hcontexts j).trans hb
  | join i k =>
    have hslots : (s.abandon (.join i k)).slots = s.slots := by simp [State.abandon]
    have hcontexts : (s.abandon (.join i k)).contexts = FMap.erase s.contexts i := by
      simp [State.abandon, State.freeContext]
    cases b with
    | claim j x => exact ⟨(State.slotAt_of_slots hslots j).trans hb.1, hb.2⟩
    | join j x => exact (State.contextAt_of_erase hcontexts j).trans ((if_neg (Ne.symm hab)).trans hb)

theorem Coherent.abandonedWork_current (h : Coherent w d loose s) : ∀ a ∈ s.abandonedWork, a.Current s := by
  intro a ha
  rw [State.abandonedWork, (sortByKey_perm ..).mem_iff, List.mem_append, List.mem_filterMap, List.mem_filterMap] at ha
  rcases ha with ⟨row, hrow, ha⟩ | ⟨row, hrow, ha⟩
  · split at ha
    · rename_i hp
      cases ha
      exact ⟨FMap.find?_of_mem h.tables.wf_slots hrow, hp⟩
    · cases ha
  · split at ha
    · cases ha
      exact FMap.find?_of_mem h.tables.wf_contexts hrow
    · cases ha

theorem Coherent.abandonedWork_apart (h : Coherent w d loose s) : s.abandonedWork.Pairwise Abandoned.Apart := by
  refine ((sortByKey_perm ..).pairwise_iff Abandoned.Apart.symm).mpr (List.pairwise_append.mpr ⟨?_, ?_, ?_⟩)
  · refine List.Pairwise.filterMap _ (fun a b hab a' ha' b' hb' => ?_) (FMap.rows_pairwise h.tables.wf_slots)
    split at ha' <;> cases ha'
    split at hb' <;> cases hb'
    exact hab
  · refine List.Pairwise.filterMap _ (fun a b hab a' ha' b' hb' => ?_) (FMap.rows_pairwise h.tables.wf_contexts)
    split at ha' <;> cases ha'
    split at hb' <;> cases hb'
    exact hab
  · intro a ha b hb
    obtain ⟨row, -, ha⟩ := List.mem_filterMap.mp ha
    obtain ⟨row', -, hb⟩ := List.mem_filterMap.mp hb
    split at ha <;> cases ha
    split at hb <;> cases hb
    trivial

/-- A row of the slots as the withdrawal found them, against the table as it is by now: of the same channel, phase and
tag, and unchanged where the drain law holds and the slot is HELD. -/
def SlotRowCurrent (d : Prop) (s : State) (row : Nat × Slot) : Prop :=
  ∃ x, s.slotAt row.1 = some x ∧ x.footing = row.2.footing ∧ (row.2.phase = .held → d → x = row.2)

/-- The release of one slot gives another slot at most its snapshot, and a HELD slot nothing (R45). -/
theorem SlotRowCurrent.startRelease (h : Coherent w d loose s) {i : Nat} {sl : Slot} {row : Nat × Slot}
    (hrow : SlotRowCurrent d s row) (hi : i ≠ row.1)
    (tag : Option Octet) : SlotRowCurrent d (s.startRelease i sl tag) row := by
  obtain ⟨x, hx, hf, hheld⟩ := hrow
  have htake := State.consumeMarkers_slotAt (s.markRelease i sl tag) row.1
  rw [State.markRelease_slotAt, if_neg (Ne.symm hi), hx] at htake
  rw [State.startRelease_eq]
  by_cases hc : Consumed (headMarkers (s.markRelease i sl tag).store.fifo) (s.markRelease i sl tag) row.1
  · refine ⟨_, htake.1 hc, ?_, fun hp hd => ?_⟩
    · rw [← hf]
      unfold SnapshotOf
      split <;> rfl
    · have hphase : x.phase = row.2.phase := congrArg (fun f => f.2.1) hf
      have hmarker := h.no_marker hd hx (.inl (by rw [hphase, hp]; simp))
      obtain ⟨c, hmem, hindex⟩ := hc
      rw [State.markRelease_entry] at hindex
      split at hindex
      · exact absurd (Option.some.inj hindex) hi
      · rename_i hcs
        obtain rfl := h.ownership.channel_of_slotIndex hindex hx
        have hin := mem_of_mem_headMarkers hmem
        rw [State.markRelease_fifo, List.mem_append, List.mem_singleton] at hin
        rcases hin with hin | hin
        · exact absurd hin hmarker
        · exact absurd (FifoEntry.marker.inj hin) hcs
  · exact ⟨x, htake.2 hc, hf, hheld⟩

theorem Coherent.withdrawSlot (h : Coherent w d none s) {row : Nat × Slot} (hrow : SlotRowCurrent d s row) :
    Coherent w d none (s.withdrawSlot row) := by
  obtain ⟨x, hx, hf, hheld⟩ := hrow
  unfold State.withdrawSlot
  split
  · rename_i hp
    exact h.releaseUntagged hx hf (hheld hp) hp
  · exact h

theorem Coherent.withdrawContext (h : Coherent w d none s) {row : Nat × Context}
    (hrow : s.contextAt row.1 = some row.2) : Coherent w d none (s.withdrawContext row) := by
  unfold State.withdrawContext
  split
  · rename_i hp
    exact h.startLeave hrow hp (by simp)
  · exact h

theorem Coherent.acceptWithdraw (h : Coherent w d none s) {tag : Octet} (hr : s.requestWith tag = none) :
    Coherent w d none (s.acceptWithdraw tag) := by
  have hmode : Coherent w d none ({ s with station := { s.station with mode := .withdrawing } } : State) :=
    h.of_ground rfl
  have hentered := hmode.enterStation hr (.inr rfl)
  unfold State.acceptWithdraw
  dsimp only
  generalize
    ({ s with station := { s.station with mode := .withdrawing } } : State).enterRequest tag .withdraw none = s₁
    at hentered ⊢
  have habandoned : Coherent w d none (s₁.abandonedWork.foldl State.abandon s₁) :=
    foldl_keeps (P := Coherent w d none) (Q := fun s a => a.Current s) (R := Abandoned.Apart)
      (fun _ _ hs ha => hs.abandon ha) (fun _ _ _ _ _ hab hb => hb.abandon hab) hentered.abandonedWork_apart hentered
      hentered.abandonedWork_current
  generalize s₁.abandonedWork.foldl State.abandon s₁ = s₂ at habandoned ⊢
  have hreleased : Coherent w d none (s₂.slots.foldl State.withdrawSlot s₂) := by
    refine foldl_keeps (P := Coherent w d none) (Q := SlotRowCurrent d) (R := fun a b => a.1 ≠ b.1)
      (fun _ _ hs ha => hs.withdrawSlot ha) (fun s a b hs _ hab hb => ?_)
      (FMap.rows_pairwise habandoned.tables.wf_slots) habandoned
      (fun row hrow => ⟨row.2, FMap.find?_of_mem habandoned.tables.wf_slots hrow, rfl, fun _ _ => rfl⟩)
    unfold State.withdrawSlot
    split
    · exact hb.startRelease hs hab none
    · exact hb
  generalize s₂.slots.foldl State.withdrawSlot s₂ = s₃ at hreleased ⊢
  refine Coherent.testWithdrawal ?_
  refine foldl_keeps (P := Coherent w d none) (Q := fun s row => s.contextAt row.1 = some row.2)
    (R := fun a b => a.1 ≠ b.1) (fun _ _ hs ha => hs.withdrawContext ha) (fun s a b _ _ hab hb => ?_)
    (FMap.rows_pairwise hreleased.tables.wf_contexts) hreleased
    fun row hrow => FMap.find?_of_mem hreleased.tables.wf_contexts hrow
  unfold State.withdrawContext
  split
  · exact (State.contextAt_of_insert rfl b.1).trans ((if_neg (Ne.symm hab)).trans hb)
  · exact hb

/-! ### ABORT and the receive queues -/

theorem Coherent.abortClaim (h : Coherent w d none s) {tag : Octet} {r : PendingRequest}
    (hr : s.requestWith tag = some r) (hk : r.kind = .claim) :
    Coherent w d none (s.abortClaim tag (r.channel.getD 0)) := by
  unfold State.abortClaim
  split
  · rename_i i sl hs
    obtain ⟨hat, hc, -⟩ := h.phase_of_slotOf hs
    obtain ⟨hmem, rfl⟩ := State.requestWith_spec hr
    split
    · rename_i hp
      rw [← hc]
      have hfreed := h.freeSlot hat (fun hd => h.no_marker hd hat (.inl (by simp [hp]))) none
      refine ((hfreed.of_loose fun hw => ?_).complete _).respond ..
      obtain ⟨-, -, hwork, -⟩ := (matched_iff_workLaw (h.work hw).nodup).mp (h.work hw)
      obtain ⟨j, x, hx, ht, hxc⟩ := hwork r hmem (.inl hk)
      rw [hxc] at hc
      obtain rfl := h.ownership.index_eq hat hx hc.symm
      obtain rfl := Option.some.inj (hat.symm.trans hx)
      exact ht
    · exact h.respond ..
  · exact h.respond ..

theorem Coherent.abortJoin (h : Coherent w d none s) {tag : Octet} {r : PendingRequest}
    (hr : s.requestWith tag = some r) (hk : r.kind = .join) :
    Coherent w d none (s.abortJoin tag (r.channel.getD 0)) := by
  unfold State.abortJoin
  split
  · rename_i i k hs
    obtain ⟨hat, hc⟩ := h.subscription.of_contextOf hs
    obtain ⟨hmem, rfl⟩ := State.requestWith_spec hr
    split
    · rw [← hc]
      refine (((h.freeContext hat).of_loose fun hw => ?_).complete _).respond ..
      obtain ⟨-, -, -, hwork, -⟩ := (matched_iff_workLaw (h.work hw).nodup).mp (h.work hw)
      obtain ⟨j, x, hx, ht, hxc⟩ := hwork r hmem (.inl hk)
      rw [hxc] at hc
      obtain rfl := h.subscription.index_eq hat hx hc.symm
      obtain rfl := Option.some.inj (hat.symm.trans hx)
      exact ht
    · exact h.respond ..
  · exact h.respond ..

theorem Coherent.abortAttach (h : Coherent w d none s) {tag : Octet} {r : PendingRequest}
    (hr : s.requestWith tag = some r) (hk : r.kind = .attach) (e : Ending) :
    Coherent w d none (s.complete tag e).enterDetached := by
  obtain ⟨hmem, rfl⟩ := State.requestWith_spec hr
  obtain ⟨htab, hown, hsub, hwork, hdrain⟩ := h
  have hloose : Coherent w d (some r.tag) s :=
    ⟨htab, hown, hsub, fun hw => (hwork hw).loosen hmem (.inl hk), hdrain⟩
  exact (hloose.complete e).enterDetached

theorem Coherent.dequeued (h : Coherent w d loose s) (c : Descriptor) : Coherent w d loose (s.dequeued c) := by
  have hfreed : Coherent w d loose (s.freeBuffers 1) := h.of_ground rfl
  have hcounted := hfreed.setEntry (c := c.channel)
    (e := { s.entry c.channel with queued := (s.entry c.channel).queued - 1 }) rfl (.inl rfl)
  unfold State.dequeued
  dsimp only
  split
  · split
    · rename_i i k hk
      exact hcounted.putContext (hcounted.subscription.of_contextOf hk).1 k.oweDrained_footing
    · exact hcounted
  · exact hcounted

theorem Coherent.setQueue (h : Coherent w d loose s) (q : QueueName) (r : ReceiveQueue) :
    Coherent w d loose (s.setQueue q r) :=
  h.of_ground (by simp [State.ground])

theorem Coherent.dequeueds (h : Coherent w d loose s) (l : List Descriptor) :
    Coherent w d loose (l.foldl State.dequeued s) := by
  induction l generalizing s with
  | nil => exact h
  | cons c rest ih => exact ih (h.dequeued c)

/-! ### Timers -/

theorem Coherent.commitClaim (h : Coherent w d loose s) {i : Nat} {sl : Slot} (hs : s.slotAt i = some sl)
    (hp : sl.phase = .claiming) : Coherent w d loose (s.commitClaim i sl) := by
  refine h.rephase (sl' := { sl with phase := .announcing, window := none, owed := some (.fresh .announce) }) hs rfl
    (fun hw t hslots hcontexts => h.matched_keepSlot hw hs hslots hcontexts rfl rfl (.inr (by rw [hp]; rfl)))
    fun hsound => ?_
  obtain ⟨ha, hd, hr, hm⟩ := hsound.idle (by simp [hp])
  exact SlotSound.of_idle hsound.members (fun _ => hsound.unheld (.inl hp)) (by simp) ha hd hr hm (by simp)

theorem ne_none_of_expired {timer : Option Nat} (h : expired timer = true) : timer ≠ none := by
  rintro rfl; simp [expired] at h

theorem Coherent.retryJoin (h : Coherent w d none s) {i : Nat} {k : Context} (hs : s.contextAt i = some k) :
    Coherent w d none (s.retryJoin i k) := by
  unfold State.retryJoin
  split
  · exact h.putContext hs rfl
  · exact (h.freeContext hs).completeHeld _

theorem Coherent.retryLeave (h : Coherent w d none s) {i : Nat} {k : Context} (hs : s.contextAt i = some k) :
    Coherent w d none (s.retryLeave i k) := by
  unfold State.retryLeave
  split
  · exact h.putContext hs rfl
  · exact (h.freeContext hs).completeHeld _

theorem Coherent.implyRelease (h : Coherent w d none s) {i : Nat} {k : Context} (hs : s.contextAt i = some k)
    (hp : k.state = .draining) : Coherent w d none (s.implyRelease i k) := by
  have hfree := h.setFree (h.entry_of_context hs).1
  refine Coherent.of_loose ((hfree.freeContext hs).notify _) fun hw => ?_
  exact h.contextTag_none hw hs (.inr hp)

theorem elapse_eq_none (timer : Option Nat) : elapse timer = none ↔ timer = none := by
  unfold elapse; cases timer <;> simp

theorem Coherent.tick (h : Coherent w d none s) : Coherent w d none s.tick := by
  have hslots := h.mapSlots Slot.elapsed (fun _ => rfl) fun sl hsound =>
    hsound.of_same rfl rfl rfl rfl (elapse_eq_none _) (elapse_eq_none _) rfl
  have hcontexts := hslots.mapContexts Context.elapsed (fun _ => rfl)
  exact (hcontexts.setPeers (FMap.wf_mapValues h.tables.wf_peers Peer.elapsed)).of_ground rfl

/-! ### Transmissions -/

theorem markFifo_mem (wire : Bool) (fifo : List FifoEntry) (c : Channel) :
    .marker c ∈ markFifo wire fifo ↔ .marker c ∈ fifo := by
  unfold markFifo
  split
  · rw [marker_mem_cons_data rfl, marker_mem_cons_data rfl]
  · rfl

theorem MarkersOrdered.mark {fifo : List FifoEntry} (h : MarkersOrdered fifo) (wire : Bool) :
    MarkersOrdered (markFifo wire fifo) := by
  unfold markFifo
  split
  · exact h.replaceData rfl
  · exact h

theorem Coherent.mark (h : Coherent w d loose s) (sender : Sender) (wire : Bool) :
    Coherent w d loose (s.mark sender wire) := by
  cases sender with
  | reply => exact h.of_ground rfl
  | beacon => exact h.of_ground rfl
  | fifo => exact h.setFifo (fun _ c => markFifo_mem wire _ c) (fun hd => (h.drain hd).ordered.mark wire)
  | slot i =>
    unfold State.mark
    dsimp only
    split
    · rename_i sl hs
      refine h.putSlot hs rfl fun hsound => hsound.of_same rfl rfl rfl rfl Iff.rfl Iff.rfl ?_
      cases sl.owed <;> rfl
    · exact h
  | context i =>
    unfold State.mark
    dsimp only
    split
    · rename_i k hk
      exact h.putContext hk rfl
    · exact h

theorem Coherent.loseContention (h : Coherent w d loose s) (sender : Sender) :
    Coherent w d loose (s.loseContention sender) := by
  unfold State.loseContention
  split
  · split
    · split
      · exact h.of_ground rfl
      · exact h.mark ..
    · exact h
  · split
    · exact h.dropHeadData
    · exact h.mark ..
  · exact h.mark ..
  · exact h.mark ..
  · exact h.mark ..

/-- The message that stands is owed by the slot in the table (R142). -/
theorem State.standingSlot_spec {i : Nat} {sl : Slot} {o : SlotOwed} (h : s.standingSlot i = some (sl, o)) :
    s.slotAt i = some sl ∧ sl.owed = some o := by
  obtain ⟨x, hx, h⟩ := Option.bind_eq_some_iff.mp h
  obtain ⟨p, hp, h⟩ := Option.bind_eq_some_iff.mp h
  split at h
  · cases h; exact ⟨hx, hp⟩
  · cases h

theorem State.standingContext_spec {i : Nat} {k : Context} {o : ContextOwed}
    (h : s.standingContext i = some (k, o)) : s.contextAt i = some k := by
  obtain ⟨x, hx, h⟩ := Option.bind_eq_some_iff.mp h
  obtain ⟨p, -, h⟩ := Option.bind_eq_some_iff.mp h
  split at h
  · cases h; exact hx
  · cases h

theorem Coherent.winClaim (h : Coherent w d none s) {i : Nat} {sl : Slot} (hs : s.slotAt i = some sl)
    (hp : sl.phase = .announcing) : Coherent w d none (s.winClaim i sl) := by
  have hheld := h.rephase (sl' := { sl with phase := .held, owed := none, transmitSequence := some 0, tag := none }) hs
    rfl (fun hw t hslots hcontexts => h.matched_dropSlot hw hs hslots hcontexts rfl) fun hsound => by
      obtain ⟨ha, hd, hr, hm⟩ := hsound.idle (by simp [hp])
      exact SlotSound.of_idle hsound.members (by simp) (by simp) ha hd hr hm (by simp)
  have hcompleted := hheld.completeHeld { result := .ok }
  unfold State.winClaim
  dsimp only
  split
  · refine hcompleted.releaseUntagged
      (x := { sl with phase := .held, owed := none, transmitSequence := some 0, tag := none }) ?_ rfl (fun _ => rfl) rfl
    rw [State.slotAt_of_slots (State.completeHeld_same ..).2.1]
    exact (State.slotAt_of_insert rfl i).trans (if_pos rfl)
  · exact hcompleted

/-- A slot's message other than RELEASE that is owed no longer. -/
theorem Coherent.oweNothing (h : Coherent w d loose s) {i : Nat} {sl : Slot} {o : SlotOwed}
    (hs : s.slotAt i = some sl) (ho : sl.owed = some o) (hk : o.kind ≠ .release) (window : Option Nat) :
    Coherent w d loose (s.putSlot i { sl with owed := none, window := window }) := by
  refine h.putSlot hs rfl fun hsound => ?_
  refine (hsound.oweNothing fun o' ho' => ?_).of_same rfl rfl rfl rfl Iff.rfl Iff.rfl rfl
  obtain rfl := Option.some.inj (ho.symm.trans ho')
  exact hk

theorem Coherent.echoSlot (h : Coherent w d none s) {i : Nat} {sl : Slot} {o : SlotOwed} (hs : s.slotAt i = some sl)
    (ho : sl.owed = some o) : Coherent w d none (s.echoSlot i sl o.kind) := by
  unfold State.echoSlot
  split
  · rename_i hk
    exact h.oweNothing hs ho (by simp [hk]) _
  · rename_i hk
    split
    · exact h.winClaim hs ‹_›
    · exact h.oweNothing hs ho (by simp [hk]) sl.window
  · rename_i hk
    exact h.oweNothing hs ho (by simp [hk]) sl.window
  · rename_i hk
    exact h.endRelease hs ⟨o, ho, by simp [hk]⟩ _

theorem Coherent.echoContext (h : Coherent w d loose s) {i : Nat} {k : Context} (hs : s.contextAt i = some k)
    (m : ContextMessage) : Coherent w d loose (s.echoContext i k m) := by
  cases m <;> exact h.putContext hs rfl

theorem Coherent.endBeacon (h : Coherent w d none s) (b : OwedBeacon) : Coherent w d none (s.endBeacon b) := by
  unfold State.endBeacon
  split
  · exact (h.completeStation (.inr rfl) _).enterDetached
  · exact h.of_ground rfl

theorem Coherent.echoTo (h : Coherent w d none s) (sender : Sender) : Coherent w d none (s.echoTo sender) := by
  unfold State.echoTo
  split
  · split
    · exact h.of_ground rfl
    · exact h
  · split
    · rename_i hstands
      obtain ⟨hs, ho⟩ := State.standingSlot_spec hstands
      exact h.echoSlot hs ho
    · exact h
  · split
    · rename_i hstands
      exact h.echoContext (State.standingContext_spec hstands) _
    · exact h
  · split
    · exact h.endBeacon _
    · exact h
  · split
    · exact h.dropHeadData
    · exact h

theorem Coherent.failClaim (h : Coherent w d none s) {i : Nat} {sl : Slot} (hs : s.slotAt i = some sl)
    (hp : sl.phase ≠ .releasing ∨ ∃ o, sl.owed = some o ∧ o.kind ≠ .announce) :
    Coherent w d none (s.failClaim i sl) :=
  (h.freeSlot hs (fun hd => h.no_marker hd hs hp) _).completeHeld _

theorem Coherent.abandonSlot (h : Coherent w d none s) {i : Nat} {sl : Slot} {o : SlotOwed}
    (hs : s.slotAt i = some sl) (ho : sl.owed = some o) : Coherent w d none (s.abandonSlot i sl o.kind) := by
  unfold State.abandonSlot
  split
  · rename_i hk
    exact h.failClaim hs (.inr ⟨o, ho, by simp [hk]⟩)
  · rename_i hk
    split
    · rename_i hp
      exact h.failClaim hs (.inl (by simp [hp]))
    · exact h.oweNothing hs ho (by simp [hk]) sl.window
  · rename_i hk
    exact h.oweNothing hs ho (by simp [hk]) sl.window
  · rename_i hk
    exact h.endRelease hs ⟨o, ho, by simp [hk]⟩ _

theorem Coherent.failSlot (h : Coherent w d none s) {i : Nat} {sl : Slot} {o : SlotOwed}
    (hs : s.slotAt i = some sl) (ho : sl.owed = some o) : Coherent w d none (s.failSlot i sl o) := by
  unfold State.failSlot
  split
  · exact h.abandonSlot hs ho
  · exact h.putSlot hs rfl fun hsound => hsound.of_same rfl rfl rfl rfl Iff.rfl Iff.rfl (by rw [ho]; rfl)

theorem Coherent.failContext (h : Coherent w d loose s) {i : Nat} {k : Context} (hs : s.contextAt i = some k)
    (o : ContextOwed) : Coherent w d loose (s.failContext i k o) := by
  unfold State.failContext State.abandonContext
  split
  · split <;> exact h.putContext hs rfl
  · exact h.putContext hs rfl

theorem Coherent.failData (h : Coherent w d loose s) : Coherent w d loose s.failData := by
  unfold State.failData
  split
  · rename_i hf
    split
    · exact h.dropHeadData
    · split
      · exact Coherent.dropHeadData (h.of_ground rfl)
      · refine h.setFifo (fun _ c' => ?_) (fun hd => ?_)
        · rw [hf, marker_mem_cons_data rfl, marker_mem_cons_data rfl]
        · have hordered := (h.drain hd).ordered
          rw [hf] at hordered
          exact hordered.replaceData rfl
  · exact h

theorem Coherent.failTo (h : Coherent w d none s) (sender : Sender) : Coherent w d none (s.failTo sender) := by
  unfold State.failTo
  split
  · split
    · unfold State.failReply
      split <;> exact h.of_ground rfl
    · exact h
  · split
    · rename_i hstands
      obtain ⟨hs, ho⟩ := State.standingSlot_spec hstands
      exact h.failSlot hs ho
    · exact h
  · split
    · rename_i hstands
      exact h.failContext (State.standingContext_spec hstands) _
    · exact h
  · split
    · unfold State.failBeacon
      split
      · exact h.endBeacon _
      · exact h.of_ground rfl
    · exact h
  · exact h.failData

theorem Coherent.muteOnFailures (h : Coherent w d none s) : Coherent w d none s.muteOnFailures := by
  unfold State.muteOnFailures
  split
  · exact h.enterMuted _
  · exact h

end

end Sys2Proof.Machine

/-! ## Every command and every step keep the invariant -/

namespace Sys2Proof.Machine

section
variable {w d : Prop} {s t : State}

/-- The effect of a command, as exec answers it. -/
theorem Coherent.of_next {u : State} (h : Coherent w d none u)
    (he : (.next u : Host.Outcome State Fault Refusal) = .next t) : Coherent w d none t := by
  cases he
  exact h

/-- The effect of a transaction of the local port, as exec answers it. -/
theorem Coherent.of_transact (h : Coherent w d none s) {effect : State → State}
    (he : (.next (s.transact effect) : Host.Outcome State Fault Refusal) = .next t)
    (hk : Coherent w d none (effect s)) : Coherent w d none t :=
  (h.transact hk).of_next he

/-! ### Port requests -/

theorem Coherent.execLoadStartup (h : Coherent w d none s) {tag : Octet} {fields : StartupRecord}
    (he : execLoadStartup tag fields s = .next t) : Coherent w d none t := by
  refine h.of_transact he ?_
  split
  · exact h.respond ..
  · split
    · exact h.respond ..
    · split
      · exact h.respond ..
      · exact h.of_ground rfl

theorem Coherent.acceptAttach (h : Coherent w d none s) {tag : Octet} (hr : s.requestWith tag = none) :
    Coherent w d none (s.acceptAttach tag) := by
  unfold State.acceptAttach
  refine Coherent.enterStation ?_ hr (.inl rfl)
  exact h.of_ground rfl

theorem Coherent.execAttach (h : Coherent w d none s) {tag : Octet} (he : execAttach tag s = .next t) :
    Coherent w d none t := by
  refine h.of_transact he ?_
  split
  · exact h.respond ..
  · rename_i hc
    exact (h.acceptAttach (requestWith_of_checks hc)).respond ..

theorem Coherent.execWithdraw (h : Coherent w d none s) {tag : Octet} (he : execWithdraw tag s = .next t) :
    Coherent w d none t := by
  refine h.of_transact he ?_
  split
  · exact h.respond ..
  · rename_i hc
    exact (h.acceptWithdraw (requestWith_of_checks hc)).respond ..

theorem Coherent.execClaimRequest (h : Coherent w d none s) {tag : Octet} {channel : Half}
    (he : execClaimRequest tag channel s = .next t) : Coherent w d none t := by
  refine h.of_transact he ?_
  split
  · exact h.respond ..
  · rename_i hc
    exact (h.claimRequest hc).respond ..

theorem Coherent.execReleaseRequest (h : Coherent w d none s) {tag : Octet} {channel : Half}
    (he : execReleaseRequest tag channel s = .next t) : Coherent w d none t := by
  refine h.of_transact he ?_
  split
  · exact h.respond ..
  · rename_i hc
    exact (h.releaseRequest hc).respond ..

theorem Coherent.execSend (h : Coherent w d none s) {tag : Octet} {channel : Half} {length : Octet}
    {payload : List Octet} (he : execSend tag channel length payload s = .next t) : Coherent w d none t := by
  refine h.of_transact he ?_
  split
  · exact h.of_ground rfl
  · split
    · exact h.respond ..
    · rename_i hc
      exact h.sendRequest hc _

theorem Coherent.execJoinRequest (h : Coherent w d none s) {tag : Octet} {channel : Half}
    (he : execJoinRequest tag channel s = .next t) : Coherent w d none t := by
  refine h.of_transact he ?_
  split
  · exact h.respond ..
  · rename_i hc
    exact (h.joinRequest hc).respond ..

theorem Coherent.execLeaveRequest (h : Coherent w d none s) {tag : Octet} {channel : Half}
    (he : execLeaveRequest tag channel s = .next t) : Coherent w d none t := by
  refine h.of_transact he ?_
  split
  · exact h.respond ..
  · rename_i hc
    exact (h.leaveRequest hc).respond ..

theorem Coherent.execSetAction (h : Coherent w d none s) {tag : Octet} {channel : Half} {actions : Octet}
    (he : execSetAction tag channel actions s = .next t) : Coherent w d none t := by
  refine h.of_transact he ?_
  split
  · exact h.respond ..
  · split
    · exact h.respond ..
    · refine Coherent.respond (Coherent.setEntry h ?_ (.inl ?_)) _ _ <;> rfl

theorem Coherent.execReadChannel (h : Coherent w d none s) {tag : Octet} {channel : Half}
    (he : execReadChannel tag channel s = .next t) : Coherent w d none t := by
  refine h.of_transact he ?_
  split
  · exact h.respond ..
  · exact h.respond ..

theorem filterIndex_lt {p : FilterParameters} (h : firstFailing (filterChecks p) = none) : p.index.toNat < 4 := by
  have := firstFailing_eq_none h (3 < p.index.toNat, .badField) (by simp [filterChecks])
  simpa [Nat.lt_succ_iff] using this

theorem Coherent.execSetFilter (h : Coherent w d none s) {tag : Octet} {p : FilterParameters}
    (he : execSetFilter tag p s = .next t) : Coherent w d none t := by
  refine h.of_transact he ?_
  split
  · exact h.respond ..
  · rename_i hc
    exact (h.setFilter (filterIndex_lt hc) _).respond ..

theorem Coherent.execReadFilter (h : Coherent w d none s) {tag index : Octet}
    (he : execReadFilter tag index s = .next t) : Coherent w d none t := by
  refine h.of_transact he ?_
  split
  · exact h.respond ..
  · exact h.respond ..

theorem Coherent.execTake (h : Coherent w d none s) {tag queue : Octet} (he : execTake tag queue s = .next t) :
    Coherent w d none t := by
  refine h.of_transact he ?_
  split
  · exact h.respond ..
  · dsimp only
    split
    · exact h.respond ..
    · exact ((h.setQueue _ _).dequeued _).respond ..

theorem Coherent.execFlush (h : Coherent w d none s) {tag queue : Octet} (he : execFlush tag queue s = .next t) :
    Coherent w d none t := by
  refine h.of_transact he ?_
  split
  · exact h.respond ..
  · dsimp only
    split
    · exact h.respond ..
    · exact ((h.setQueue _ _).dequeueds _).respond ..

theorem Coherent.execReadPeer (h : Coherent w d none s) {tag station : Octet}
    (he : execReadPeer tag station s = .next t) : Coherent w d none t := by
  refine h.of_transact he ?_
  split
  · exact h.respond ..
  · exact h.respond ..

theorem Coherent.execReadEvent (h : Coherent w d none s) {tag : Octet} (he : execReadEvent tag s = .next t) :
    Coherent w d none t := by
  refine h.of_transact he ?_
  split
  · exact h.respond ..
  · exact h.of_ground rfl

theorem Coherent.execAbort (h : Coherent w d none s) {tag : Octet} (he : execAbort tag s = .next t) :
    Coherent w d none t := by
  refine h.of_transact he ?_
  split
  · exact h.respond ..
  · rename_i r hr
    split
    · exact h.abortClaim hr ‹_›
    · exact h.abortJoin hr ‹_›
    · exact (h.abortAttach hr ‹_› _).respond ..
    all_goals exact h.respond ..

theorem Coherent.execBadRequest (h : Coherent w d none s) {code : Octet} (he : execBadRequest code s = .next t) :
    Coherent w d none t := by
  refine h.of_transact he ?_
  split
  · exact h.of_ground rfl
  · exact h.respond ..

theorem Coherent.execIncompleteRequest (h : Coherent w d none s) {octets : List Octet} {bits : Nat}
    (he : execIncompleteRequest octets bits s = .next t) : Coherent w d none t := by
  refine h.of_transact he ?_
  split
  · exact h.of_ground rfl
  · exact h

/-! ### Reset, the own transmissions and the span -/

theorem Coherent.execPowerOnReset (h : Coherent w d none s) {edge : ResetEdge}
    (he : execPowerOnReset edge s = .next t) : Coherent w d none t := by
  refine Coherent.of_next ?_ he
  split
  · exact (Coherent.afterReset s.station.number).of_ground rfl
  · rename_i straps selected
    split
    · exact (Coherent.afterReset straps).of_ground rfl
    · exact h

theorem Coherent.execTransmitAttempt (h : Coherent w d none s) (he : execTransmitAttempt s = .next t) :
    Coherent w d none t := by
  refine Coherent.of_next ?_ he
  split
  · split
    · exact (h.mark ..).of_ground rfl
    · exact h
  · exact h

theorem Coherent.setAttempt (h : Coherent w d none s) (a : Option Attempt) : Coherent w d none (s.setAttempt a) :=
  h.of_ground rfl

theorem Coherent.setFailures (h : Coherent w d none s) (n : Nat) : Coherent w d none (s.setFailures n) :=
  h.of_ground rfl

theorem Coherent.execLostContention (h : Coherent w d none s) (he : execLostContention s = .next t) :
    Coherent w d none t := by
  refine Coherent.of_next ?_ he
  split
  · exact (h.setAttempt none).loseContention _
  · exact h

theorem Coherent.execEcho (h : Coherent w d none s) (he : execEcho s = .next t) : Coherent w d none t := by
  refine Coherent.of_next ?_ he
  split
  · exact ((h.setAttempt none).setFailures 0).echoTo _
  · exact h

theorem Coherent.execFailedAttempt (h : Coherent w d none s) {cause : AttemptFailure}
    (he : execFailedAttempt cause s = .next t) : Coherent w d none t := by
  refine Coherent.of_next ?_ he
  split
  · exact (((h.setAttempt none).setFailures _).failTo _).muteOnFailures
  · exact h

theorem Coherent.execMalformedMessage (h : Coherent w d none s) {octets : List Octet}
    (he : execMalformedMessage octets s = .next t) : Coherent w d none t := by
  refine Coherent.of_next ?_ he
  split
  · exact h.receive ..
  · split
    · exact h.of_ground rfl
    · exact h

theorem Coherent.execDuplicateNumberEvent (h : Coherent w d none s) (he : execDuplicateNumberEvent s = .next t) :
    Coherent w d none t := by
  refine Coherent.of_next ?_ he
  split
  · exact h.duplicateNumber
  · exact h

/-! ### Expiries -/

theorem Coherent.execClaimWindowExpiry (h : Coherent w d none s) {i : Fin 32}
    (he : execClaimWindowExpiry i s = .next t) : Coherent w d none t := by
  refine Coherent.of_next ?_ he
  split
  · rename_i sl hs
    split
    · rename_i hp
      exact h.commitClaim hs hp.1
    · exact h
  · exact h

theorem Coherent.execResendTimerExpiry (h : Coherent w d none s) {i : Fin 32}
    (he : execResendTimerExpiry i s = .next t) : Coherent w d none t := by
  refine Coherent.of_next ?_ he
  split
  · rename_i sl hs
    split
    · rename_i hexpired
      exact h.putSlot hs rfl fun hsound => hsound.resend (ne_none_of_expired hexpired) _
    · exact h
  · exact h

theorem Coherent.execDrainTimerExpiry (h : Coherent w d none s) {i : Fin 32}
    (he : execDrainTimerExpiry i s = .next t) : Coherent w d none t := by
  refine Coherent.of_next ?_ he
  split
  · rename_i sl hs
    split
    · rename_i hexpired
      exact h.putSlot hs rfl fun hsound => hsound.force (ne_none_of_expired hexpired)
    · exact h
  · exact h

theorem Coherent.execJoinResponseTimerExpiry (h : Coherent w d none s) {i : Fin 64}
    (he : execJoinResponseTimerExpiry i s = .next t) : Coherent w d none t := by
  refine Coherent.of_next ?_ he
  split
  · rename_i k hk
    split
    · exact h.retryJoin hk
    · exact h
  · exact h

theorem Coherent.execLeaveResponseTimerExpiry (h : Coherent w d none s) {i : Fin 64}
    (he : execLeaveResponseTimerExpiry i s = .next t) : Coherent w d none t := by
  refine Coherent.of_next ?_ he
  split
  · rename_i k hk
    split
    · exact h.retryLeave hk
    · exact h
  · exact h

theorem Coherent.execDrainWaitTimerExpiry (h : Coherent w d none s) {i : Fin 64}
    (he : execDrainWaitTimerExpiry i s = .next t) : Coherent w d none t := by
  refine Coherent.of_next ?_ he
  split
  · rename_i k hk
    split
    · rename_i hp
      exact h.implyRelease hk hp.1
    · exact h
  · exact h

theorem Coherent.execPeerTimerExpiry (h : Coherent w d none s) {x : Station}
    (he : execPeerTimerExpiry x s = .next t) : Coherent w d none t := by
  refine Coherent.of_next ?_ he
  split
  · split
    · exact h.depart ..
    · exact h
  · exact h

theorem Coherent.execPresenceTimerExpiry (h : Coherent w d none s) (he : execPresenceTimerExpiry s = .next t) :
    Coherent w d none t := by
  refine Coherent.of_next ?_ he
  split
  · exact h.of_ground rfl
  · exact h

theorem Coherent.endListening (h : Coherent w d none s) : Coherent w d none s.endListening := by
  have hactive : Coherent w d none
      ({ s with station := { s.station with mode := .active, listen := none } } : State) := h.of_ground rfl
  exact hactive.completeStation (kind := .attach) (.inl rfl) _

theorem Coherent.execListenTimerExpiry (h : Coherent w d none s) (he : execListenTimerExpiry s = .next t) :
    Coherent w d none t := by
  refine Coherent.of_next ?_ he
  split
  · exact h.endListening
  · exact h

/-! ### Commands and steps -/

/-- Every command keeps the invariant. -/
theorem Coherent.exec (h : Coherent w d none s) {c : Instr} (he : exec c s = .next t) : Coherent w d none t := by
  cases c with
  | loadStartup tag fields => exact h.execLoadStartup (tag := tag) he
  | attach tag => exact h.execAttach he
  | withdraw tag => exact h.execWithdraw he
  | restart tag => exact h.of_transact he (h.restarted.respond ..)
  | readStation tag => exact h.of_transact he (h.respond ..)
  | claimRequest tag channel => exact h.execClaimRequest he
  | releaseRequest tag channel => exact h.execReleaseRequest he
  | send tag channel length payload => exact h.execSend (tag := tag) he
  | joinRequest tag channel => exact h.execJoinRequest he
  | leaveRequest tag channel => exact h.execLeaveRequest he
  | setAction tag channel actions => exact h.execSetAction (tag := tag) he
  | readChannel tag channel => exact h.execReadChannel (tag := tag) he
  | setFilter tag parameters => exact h.execSetFilter (tag := tag) he
  | readFilter tag index => exact h.execReadFilter (tag := tag) he
  | take tag queue => exact h.execTake (tag := tag) he
  | flush tag queue => exact h.execFlush (tag := tag) he
  | readPeer tag station => exact h.execReadPeer (tag := tag) he
  | readEvent tag => exact h.execReadEvent (tag := tag) he
  | abort tag => exact h.execAbort he
  | badRequest code => exact h.execBadRequest he
  | incompleteRequest octets bits => exact h.execIncompleteRequest he
  | powerOnReset edge => exact h.execPowerOnReset he
  | transmitAttempt => exact h.execTransmitAttempt he
  | lostContention => exact h.execLostContention he
  | echo => exact h.execEcho he
  | failedAttempt cause => exact h.execFailedAttempt (cause := cause) he
  | claimMessage header => exact (h.receive ..).of_next he
  | holdMessage header => exact (h.receive ..).of_next he
  | announceMessage header => exact (h.receive ..).of_next he
  | joinMessage header => exact (h.receive ..).of_next he
  | admitMessage header next => exact (h.receive ..).of_next he
  | denyMessage header reason => exact (h.receive ..).of_next he
  | leaveMessage header => exact (h.receive ..).of_next he
  | leftMessage header => exact (h.receive ..).of_next he
  | drainMessage header => exact (h.receive ..).of_next he
  | drainedMessage header => exact (h.receive ..).of_next he
  | releaseMessage header => exact (h.receive ..).of_next he
  | dataMessage header sequence length payload => exact (h.receive ..).of_next he
  | beaconMessage header interval => exact (h.receive ..).of_next he
  | malformedMessage octets => exact h.execMalformedMessage he
  | duplicateNumberEvent => exact h.execDuplicateNumberEvent he
  | claimWindowExpiry slot => exact h.execClaimWindowExpiry he
  | resendTimerExpiry slot => exact h.execResendTimerExpiry he
  | drainTimerExpiry slot => exact h.execDrainTimerExpiry he
  | joinResponseTimerExpiry context => exact h.execJoinResponseTimerExpiry he
  | leaveResponseTimerExpiry context => exact h.execLeaveResponseTimerExpiry he
  | drainWaitTimerExpiry context => exact h.execDrainWaitTimerExpiry he
  | peerTimerExpiry station => exact h.execPeerTimerExpiry he
  | presenceTimerExpiry => exact h.execPresenceTimerExpiry he
  | listenTimerExpiry => exact h.execListenTimerExpiry he

/-- Every step keeps the invariant. -/
theorem Coherent.step (h : Coherent w d none s) (he : step s = .next t) : Coherent w d none t := by
  unfold Machine.step at he
  split at he
  · exact h.tick.of_next he
  · rename_i c rest _
    have hfront : Coherent w d none ({ s with pending := rest } : State) := h.of_ground rfl
    exact hfront.exec he

end

/-! ## The tables, the work and the drain law (O55, O54) -/

/-- Settles O55: the tables' invariant alone gives the first part; with the requests matched to the work, the second. -/
theorem everyStepKeepsTablesWorkAndRequestsInAgreement :
    Obligations.EveryStepKeepsTablesWorkAndRequestsInAgreement := by
  unfold Obligations.EveryStepKeepsTablesWorkAndRequestsInAgreement
  rintro s t ⟨htables, hownership, hsubscription⟩ he
  refine ⟨?_, fun hrequests hwork => ?_⟩
  · have h : Coherent False False none s := ⟨htables, hownership, hsubscription, False.elim, False.elim⟩
    have hstep := h.step he
    exact ⟨hstep.tables, hstep.ownership, hstep.subscription⟩
  · have hmatched : Matched s.Holds s.port.requests none := (matched_iff_workLaw hrequests.2.2).mpr hwork
    have h : Coherent True False none s := ⟨htables, hownership, hsubscription, fun _ => hmatched, False.elim⟩
    have hafter := (h.step he).work trivial
    exact (matched_iff_workLaw hafter.nodup).mp hafter

/-- Settles O54: the drain law, in the form `Drained`, is part of the invariant. -/
theorem everyStepKeepsTheDrainLaw : Obligations.EveryStepKeepsTheDrainLaw := by
  unfold Obligations.EveryStepKeepsTheDrainLaw
  rintro s t ⟨htables, hownership, hsubscription, hdrain⟩ he
  have h : Coherent False True none s :=
    ⟨htables, hownership, hsubscription, False.elim, fun _ => (drained_iff_drainLaw hownership).mpr hdrain⟩
  have hstep := h.step he
  exact (drained_iff_drainLaw hstep.ownership).mp (hstep.drain trivial)

end Sys2Proof.Machine

/-! ## What the operations leave of the buffers, the queues and the queued counts -/

namespace Sys2Proof.Machine

/-- What the laws of the buffers, the queue limits and the queued counts speak of. -/
def State.stock (s : State) :=
  (fun q => (s.store.queue q).cells, s.store.free, dataEntries s.store.fifo, s.station.startup,
    fun c => (s.entry c).queued)

section
variable {s t : State}

theorem State.stock_of_same (hc : t.channels = s.channels) (hs : t.store = s.store)
    (hu : t.station.startup = s.station.startup) : t.stock = s.stock := by
  simp only [State.stock, hs, hu, State.entry_of_channels hc]

theorem State.stock_of_mapEntries {f : ChannelEntry → ChannelEntry} (hf : f .initial = .initial)
    (hq : ∀ e, (f e).queued = e.queued) (hc : t.channels = mapEntries f s.channels) (hs : t.store = s.store)
    (hu : t.station.startup = s.station.startup) : t.stock = s.stock := by
  simp only [State.stock, hs, hu, State.entry_of_mapEntries hf hc, hq]

/-- The Station Controller but for its BEACON says which startup record is loaded. -/
theorem startup_of_settled {a b : StationController} (h : a.settled = b.settled) : a.startup = b.startup :=
  (StationController.mk.inj h).2.2.2.1

/-! ### Entries, slots, contexts, notifications and completions -/

theorem State.setEntry_stock {c : Channel} {e : ChannelEntry} (he : e.queued = (s.entry c).queued) :
    (s.setEntry c e).stock = s.stock := by
  have hqueued (x : Channel) : ((s.setEntry c e).entry x).queued = (s.entry x).queued := by
    rw [State.entry_setEntry]
    split
    · rw [he, ‹x = c›]
    · rfl
  simp only [State.stock, hqueued, State.setEntry_store, State.setEntry_station]

@[simp] theorem State.putSlot_stock (s : State) (i : Nat) (sl : Slot) : (s.putSlot i sl).stock = s.stock := rfl

@[simp] theorem State.putContext_stock (s : State) (i : Nat) (k : Context) : (s.putContext i k).stock = s.stock := rfl

@[simp] theorem State.notify_stock (s : State) (n : Notification) : (s.notify n).stock = s.stock :=
  State.stock_of_same (by simp) (by simp) (by simp)

@[simp] theorem State.testWithdrawal_stock (s : State) : s.testWithdrawal.stock = s.stock :=
  State.stock_of_same (by simp) (by simp) (startup_of_settled s.testWithdrawal_settled)

@[simp] theorem State.complete_stock (s : State) (tag : Octet) (e : Ending) : (s.complete tag e).stock = s.stock :=
  State.stock_of_same (by simp) (by simp) (startup_of_settled (s.complete_settled tag e))

@[simp] theorem State.completeHeld_stock (s : State) (tag : Option Octet) (e : Ending) :
    (s.completeHeld tag e).stock = s.stock :=
  State.stock_of_same (by simp) (by simp) (startup_of_settled (s.completeHeld_settled tag e))

@[simp] theorem State.enterRequest_stock (s : State) (tag : Octet) (kind : RequestKind) (c : Option Channel) :
    (s.enterRequest tag kind c).stock = s.stock := rfl

@[simp] theorem State.respond_stock (s : State) (r : Result) (data : List Octet) : (s.respond r data).stock = s.stock :=
  rfl

@[simp] theorem State.freeSlot_stock (s : State) (i : Nat) (c : Channel) (x : Option Station) :
    (s.freeSlot i c x).stock = s.stock := by
  unfold State.freeSlot
  rw [State.testWithdrawal_stock]
  cases x with
  | none => exact State.setEntry_stock (c := c) (e := (s.entry c).toFree) rfl
  | some x => exact State.setEntry_stock (c := c) (e := (s.entry c).toRemote x) rfl

@[simp] theorem State.freeContext_stock (s : State) (i : Nat) (c : Channel) : (s.freeContext i c).stock = s.stock := by
  unfold State.freeContext
  rw [State.testWithdrawal_stock]
  exact State.setEntry_stock (c := c) (e := (s.entry c).unsubscribed) rfl

@[simp] theorem State.startLeave_stock (s : State) (i : Nat) (k : Context) (tag : Option Octet) :
    (s.startLeave i k tag).stock = s.stock :=
  State.setEntry_stock rfl

@[simp] theorem State.orphan_stock (s : State) (i : Nat) (k : Context) (r : OrphanReason) (x : Station) :
    (s.orphan i k r x).stock = s.stock := by
  simp [State.orphan]

/-! ### Replies, markers and releases -/

@[simp] theorem State.addReply_stock (s : State) (kind : ReplyKind) (c : Channel) (x : Station) :
    (s.addReply kind c x).stock = s.stock :=
  State.stock_of_same (by simp) (by simp) (by simp)

@[simp] theorem State.purgeReplies_stock (s : State) (c : Channel) : (s.purgeReplies c).stock = s.stock := rfl

theorem State.setFifo_stock {f : List FifoEntry} (hf : dataEntries f = dataEntries s.store.fifo) :
    (s.setFifo f).stock = s.stock := by
  simp only [State.stock, State.setFifo, CellStore.queue_fifo, hf]
  rfl

@[simp] theorem State.takeSnapshot_stock (s : State) (c : Channel) : (s.takeSnapshot c).stock = s.stock :=
  State.stock_of_same (by simp) (by simp) (by simp)

@[simp] theorem State.consumeMarkers_stock (s : State) : s.consumeMarkers.stock = s.stock := by
  unfold State.consumeMarkers
  rw [foldl_same (fun t => t.stock) State.takeSnapshot State.takeSnapshot_stock]
  exact State.setFifo_stock (dataEntries_withoutHeadMarkers _)

theorem dataEntries_append_marker (f : List FifoEntry) (c : Channel) :
    dataEntries (f ++ [.marker c]) = dataEntries f := by
  simp [dataEntries, FifoEntry.isData]

@[simp] theorem State.startRelease_stock (s : State) (i : Nat) (sl : Slot) (tag : Option Octet) :
    (s.startRelease i sl tag).stock = s.stock := by
  rw [State.startRelease_eq, State.consumeMarkers_stock]
  exact (State.setFifo_stock (dataEntries_append_marker ..)).trans (State.setEntry_stock rfl)

@[simp] theorem State.endRelease_stock (s : State) (i : Nat) (sl : Slot) (unannounced : Bool) :
    (s.endRelease i sl unannounced).stock = s.stock := by
  simp [State.endRelease]

@[simp] theorem State.yieldTo_stock (s : State) (i : Nat) (sl : Slot) (x : Station) :
    (s.yieldTo i sl x).stock = s.stock := by
  simp [State.yieldTo]

/-! ### Peers and the station -/

@[simp] theorem State.departContext_stock (y : Station) (s : State) (row : Nat × Context) :
    (s.departContext y row).stock = s.stock := by
  unfold State.departContext
  (repeat' split) <;> simp

theorem ChannelEntry.departed_queued (y : Station) (e : ChannelEntry) : (e.departed y).queued = e.queued := by
  unfold ChannelEntry.departed
  split <;> rfl

@[simp] theorem State.depart_stock (s : State) (y : Station) (reason : LostReason) (epoch : Octet) :
    (s.depart y reason epoch).stock = s.stock := by
  unfold State.depart
  rw [foldl_same (fun t => t.stock) (State.departContext y) (State.departContext_stock y)]
  exact State.stock_of_mapEntries (ChannelEntry.departed_initial y) (ChannelEntry.departed_queued y) (by simp) (by simp)
    (by simp)

@[simp] theorem State.arrive_stock (s : State) (h : Header) (b : Body) : (s.arrive h b).stock = s.stock :=
  State.stock_of_same (by simp) (by simp) (by simp)

@[simp] theorem State.continuePresence_stock (s : State) (h : Header) (b : Body) (p : Peer) :
    (s.continuePresence h b p).stock = s.stock := rfl

@[simp] theorem State.peerTakes_stock (s : State) (h : Header) (b : Body) : (s.peerTakes h b).stock = s.stock := by
  unfold State.peerTakes
  (repeat' split) <;> simp

theorem ChannelEntry.forgetRemote_queued (e : ChannelEntry) : e.forgetRemote.queued = e.queued := by
  unfold ChannelEntry.forgetRemote
  split <;> rfl

@[simp] theorem State.enterDetached_stock (s : State) : s.enterDetached.stock = s.stock :=
  State.stock_of_mapEntries ChannelEntry.forgetRemote_initial ChannelEntry.forgetRemote_queued rfl rfl rfl

@[simp] theorem State.ownerChanges_stock (s : State) (c : Channel) (x : Station) :
    (s.ownerChanges c x).stock = s.stock := by
  unfold State.ownerChanges
  (repeat' split) <;> simp

/-! ### Messages and their consumers -/

@[simp] theorem State.takeClaim_stock (s : State) (h : Header) : (s.takeClaim h).stock = s.stock := by
  unfold State.takeClaim
  (repeat' split) <;> simp

@[simp] theorem State.takeJoin_stock (s : State) (h : Header) : (s.takeJoin h).stock = s.stock := by
  unfold State.takeJoin
  (repeat' split) <;> simp

@[simp] theorem State.takeLeave_stock (s : State) (h : Header) : (s.takeLeave h).stock = s.stock := by
  unfold State.takeLeave
  (repeat' split) <;> simp

@[simp] theorem State.takeDrained_stock (s : State) (h : Header) : (s.takeDrained h).stock = s.stock := by
  unfold State.takeDrained
  (repeat' split) <;> simp

@[simp] theorem State.takeAdmit_stock (s : State) (h : Header) (next : Seq) : (s.takeAdmit h next).stock = s.stock := by
  unfold State.takeAdmit
  split
  · split
    · split
      · exact (State.completeHeld_stock ..).trans (State.setEntry_stock rfl)
      · rfl
    · split <;> simp
  · rfl

@[simp] theorem State.endJoin_stock (s : State) (i : Nat) (k : Context) (e : Ending) :
    (s.endJoin i k e).stock = s.stock := by
  simp [State.endJoin]

@[simp] theorem State.takeDenyReleasing_stock (s : State) (h : Header) : (s.takeDenyReleasing h).stock = s.stock := by
  unfold State.takeDenyReleasing
  (repeat' split) <;> simp

@[simp] theorem State.takeDenyNotOwner_stock (s : State) (h : Header) : (s.takeDenyNotOwner h).stock = s.stock := by
  have hfree : (s.setEntry h.channel (s.entry h.channel).toFree).stock = s.stock := State.setEntry_stock rfl
  unfold State.takeDenyNotOwner
  dsimp only
  (repeat' split) <;> simp [hfree]

@[simp] theorem State.takeLeft_stock (s : State) (h : Header) : (s.takeLeft h).stock = s.stock := by
  unfold State.takeLeft
  (repeat' split) <;> simp

@[simp] theorem State.takeDrain_stock (s : State) (h : Header) : (s.takeDrain h).stock = s.stock := by
  unfold State.takeDrain
  split
  · split
    · split
      · exact State.setEntry_stock rfl
      · split <;> simp
      · rfl
      · rfl
    · rfl
  · rfl

@[simp] theorem State.takeRelease_stock (s : State) (h : Header) : (s.takeRelease h).stock = s.stock := by
  unfold State.takeRelease
  (repeat' split) <;> simp

@[simp] theorem State.countStray_stock (s : State) : s.countStray.stock = s.stock := rfl

/-! ### Port requests -/

@[simp] theorem State.acceptClaim_stock (s : State) (tag : Octet) (c : Channel) (i : Nat) :
    (s.acceptClaim tag c i).stock = s.stock :=
  (State.enterRequest_stock ..).trans (State.setEntry_stock rfl)

@[simp] theorem State.acceptJoin_stock (s : State) (tag : Octet) (c : Channel) (i : Nat) :
    (s.acceptJoin tag c i).stock = s.stock :=
  (State.enterRequest_stock ..).trans (State.setEntry_stock rfl)

@[simp] theorem State.acceptRelease_stock (s : State) (tag : Octet) (c : Channel) :
    (s.acceptRelease tag c).stock = s.stock := by
  unfold State.acceptRelease
  split <;> simp

@[simp] theorem State.acceptLeave_stock (s : State) (tag : Octet) (c : Channel) :
    (s.acceptLeave tag c).stock = s.stock := by
  unfold State.acceptLeave
  split <;> simp

@[simp] theorem State.acceptAttach_stock (s : State) (tag : Octet) : (s.acceptAttach tag).stock = s.stock := rfl

@[simp] theorem State.abandon_stock (s : State) (a : Abandoned) : (s.abandon a).stock = s.stock := by
  cases a <;> simp [State.abandon]

@[simp] theorem State.withdrawSlot_stock (s : State) (row : Nat × Slot) : (s.withdrawSlot row).stock = s.stock := by
  unfold State.withdrawSlot
  split <;> simp

@[simp] theorem State.withdrawContext_stock (s : State) (row : Nat × Context) :
    (s.withdrawContext row).stock = s.stock := by
  unfold State.withdrawContext
  split <;> simp

@[simp] theorem State.acceptWithdraw_stock (s : State) (tag : Octet) : (s.acceptWithdraw tag).stock = s.stock := by
  unfold State.acceptWithdraw
  dsimp only
  rw [State.testWithdrawal_stock, foldl_same (fun t => t.stock) State.withdrawContext State.withdrawContext_stock,
    foldl_same (fun t => t.stock) State.withdrawSlot State.withdrawSlot_stock,
    foldl_same (fun t => t.stock) State.abandon State.abandon_stock]
  rfl

@[simp] theorem State.abortClaim_stock (s : State) (tag : Octet) (c : Channel) :
    (s.abortClaim tag c).stock = s.stock := by
  unfold State.abortClaim
  (repeat' split) <;> simp

@[simp] theorem State.abortJoin_stock (s : State) (tag : Octet) (c : Channel) :
    (s.abortJoin tag c).stock = s.stock := by
  unfold State.abortJoin
  (repeat' split) <;> simp

@[simp] theorem State.setFilter_stock (s : State) (k : Nat) (f : Filter) : (s.setFilter k f).stock = s.stock := rfl

/-! ### Timers -/

@[simp] theorem State.commitClaim_stock (s : State) (i : Nat) (sl : Slot) : (s.commitClaim i sl).stock = s.stock :=
  State.setEntry_stock rfl

@[simp] theorem State.retryJoin_stock (s : State) (i : Nat) (k : Context) : (s.retryJoin i k).stock = s.stock := by
  unfold State.retryJoin
  split <;> simp

@[simp] theorem State.retryLeave_stock (s : State) (i : Nat) (k : Context) : (s.retryLeave i k).stock = s.stock := by
  unfold State.retryLeave
  split <;> simp

@[simp] theorem State.implyRelease_stock (s : State) (i : Nat) (k : Context) :
    (s.implyRelease i k).stock = s.stock := by
  unfold State.implyRelease
  rw [State.notify_stock, State.freeContext_stock]
  exact State.setEntry_stock rfl

@[simp] theorem State.endListening_stock (s : State) : s.endListening.stock = s.stock :=
  State.completeHeld_stock ..

@[simp] theorem State.tick_stock (s : State) : s.tick.stock = s.stock := rfl

/-! ### Transmissions -/

theorem dataEntries_markFifo (wire : Bool) (f : List FifoEntry) : dataEntries (markFifo wire f) = dataEntries f := by
  unfold markFifo
  split <;> rfl

@[simp] theorem State.setAttempt_stock (s : State) (a : Option Attempt) : (s.setAttempt a).stock = s.stock := rfl

@[simp] theorem State.setFailures_stock (s : State) (n : Nat) : (s.setFailures n).stock = s.stock := rfl

@[simp] theorem State.setReplies_stock (s : State) (l : List Reply) : (s.setReplies l).stock = s.stock := rfl

@[simp] theorem State.setBeacon_stock (s : State) (b : Option OwedBeacon) : (s.setBeacon b).stock = s.stock := rfl

@[simp] theorem State.mark_stock (s : State) (sender : Sender) (wire : Bool) :
    (s.mark sender wire).stock = s.stock := by
  cases sender with
  | reply => rfl
  | beacon => rfl
  | slot i => unfold State.mark; dsimp only; split <;> simp
  | context i => unfold State.mark; dsimp only; split <;> simp
  | fifo => exact State.setFifo_stock (dataEntries_markFifo ..)

@[simp] theorem State.winClaim_stock (s : State) (i : Nat) (sl : Slot) : (s.winClaim i sl).stock = s.stock := by
  unfold State.winClaim
  dsimp only
  split
  · rw [State.startRelease_stock, State.completeHeld_stock]
    exact State.setEntry_stock rfl
  · rw [State.completeHeld_stock]
    exact State.setEntry_stock rfl

@[simp] theorem State.echoSlot_stock (s : State) (i : Nat) (sl : Slot) (m : SlotMessage) :
    (s.echoSlot i sl m).stock = s.stock := by
  unfold State.echoSlot
  (repeat' split) <;> simp

@[simp] theorem State.awaitResponse_stock (s : State) (i : Nat) (k : Context) :
    (s.awaitResponse i k).stock = s.stock := rfl

@[simp] theorem State.echoContext_stock (s : State) (i : Nat) (k : Context) (m : ContextMessage) :
    (s.echoContext i k m).stock = s.stock := by
  cases m <;> rfl

@[simp] theorem State.endWithdrawal_stock (s : State) : s.endWithdrawal.stock = s.stock := by
  simp [State.endWithdrawal]

@[simp] theorem State.endBeacon_stock (s : State) (b : OwedBeacon) : (s.endBeacon b).stock = s.stock := by
  unfold State.endBeacon
  split <;> simp

@[simp] theorem State.failClaim_stock (s : State) (i : Nat) (sl : Slot) : (s.failClaim i sl).stock = s.stock := by
  simp [State.failClaim]

@[simp] theorem State.abandonSlot_stock (s : State) (i : Nat) (sl : Slot) (m : SlotMessage) :
    (s.abandonSlot i sl m).stock = s.stock := by
  unfold State.abandonSlot
  (repeat' split) <;> simp

@[simp] theorem State.abandonContext_stock (s : State) (i : Nat) (k : Context) (m : ContextMessage) :
    (s.abandonContext i k m).stock = s.stock := by
  cases m <;> rfl

@[simp] theorem State.failSlot_stock (s : State) (i : Nat) (sl : Slot) (o : SlotOwed) :
    (s.failSlot i sl o).stock = s.stock := by
  unfold State.failSlot
  split <;> simp

@[simp] theorem State.failContext_stock (s : State) (i : Nat) (k : Context) (o : ContextOwed) :
    (s.failContext i k o).stock = s.stock := by
  unfold State.failContext
  split <;> simp

@[simp] theorem State.failReply_stock (s : State) (r : Reply) (rest : List Reply) :
    (s.failReply r rest).stock = s.stock := by
  unfold State.failReply
  split <;> simp

@[simp] theorem State.failBeacon_stock (s : State) (b : OwedBeacon) : (s.failBeacon b).stock = s.stock := by
  unfold State.failBeacon
  split <;> simp

end

end Sys2Proof.Machine

/-! ## The laws of the buffers, the queue limits and the queued counts -/

namespace Sys2Proof.Machine

/-- The laws of the buffers, the queue limits and the queued counts, each where it is asked for. -/
structure Stored (b l q : Prop) (s : State) : Prop where
  buffers : b → BufferLaw s
  limits : l → LimitLaw s
  counts : q → QueuedLaw s

/-! ### Descriptors in the five queues -/

/-- The descriptors of a kind in the five receive queues. -/
def CellStore.tally (p : Descriptor → Bool) (c : CellStore) : Nat :=
  (c.queue .q0).cells.countP p + (c.queue .q1).cells.countP p + (c.queue .q2).cells.countP p +
    (c.queue .q3).cells.countP p + (c.queue .qm).cells.countP p

theorem CellStore.queuedCells_eq_tally (c : CellStore) : c.queuedCells = c.tally (fun _ => true) := by
  simp [CellStore.tally, CellStore.queuedCells, CellStore.queue]

theorem CellStore.cellsOf_eq_tally (c : CellStore) (x : Channel) :
    c.cellsOf x = c.tally (fun d => d.channel = x) := rfl

theorem CellStore.tally_congr {c c' : CellStore} (h : ∀ q, (c'.queue q).cells = (c.queue q).cells)
    (p : Descriptor → Bool) : c'.tally p = c.tally p := by
  simp only [CellStore.tally, h]

/-- One queue's cells change. -/
theorem CellStore.tally_change {c c' : CellStore} {q : QueueName} {cells : List Descriptor}
    (h : ∀ q', (c'.queue q').cells = if q' = q then cells else (c.queue q').cells) (p : Descriptor → Bool) :
    c'.tally p + (c.queue q).cells.countP p = c.tally p + cells.countP p := by
  cases q <;> simp [CellStore.tally, h] <;> omega

theorem CellStore.setQueue_cells (c : CellStore) (q : QueueName) (r : ReceiveQueue) (q' : QueueName) :
    ((c.setQueue q r).queue q').cells = if q' = q then r.cells else (c.queue q').cells := by
  split
  · rename_i hq
    rw [hq, CellStore.queue_setQueue_self]
  · rename_i hq
    rw [CellStore.queue_setQueue_other _ _ hq]

section
variable {b l q : Prop} {s t : State}

/-! ### The moves that keep the laws -/

/-- DATA entries leave the FIFO, and their buffers are free. -/
theorem Stored.freed (h : Stored b l q s) {n : Nat} (hcells : ∀ x, (t.store.queue x).cells = (s.store.queue x).cells)
    (hfree : t.store.free = s.store.free + n) (hdata : dataEntries t.store.fifo + n = dataEntries s.store.fifo)
    (hstartup : t.station.startup = s.station.startup) (hqueued : ∀ c, (t.entry c).queued = (s.entry c).queued) :
    Stored b l q t := by
  obtain ⟨hbuffers, hlimits, hcounts⟩ := h
  refine ⟨fun hb => ?_, fun hl r hr => ?_, fun hq c => ?_⟩
  · have hlaw := hbuffers hb
    unfold BufferLaw at hlaw ⊢
    rw [CellStore.queuedCells_eq_tally] at hlaw ⊢
    rw [CellStore.tally_congr hcells]
    omega
  · obtain ⟨hqueues, hfifo⟩ := hlimits hl r (hstartup ▸ hr)
    exact ⟨fun x => by rw [hcells]; exact hqueues x, by omega⟩
  · rw [hqueued, hcounts hq, CellStore.cellsOf_eq_tally, CellStore.cellsOf_eq_tally, CellStore.tally_congr hcells]

theorem Stored.of_stock (h : Stored b l q s) (hs : t.stock = s.stock) : Stored b l q t := by
  simp only [State.stock, Prod.mk.injEq] at hs
  obtain ⟨hcells, hfree, hdata, hstartup, hqueued⟩ := hs
  exact h.freed (n := 0) (congrFun hcells) hfree hdata hstartup (congrFun hqueued)

/-- Nothing is stored. -/
theorem Stored.of_empty (hcells : ∀ x, (s.store.queue x).cells = []) (hfree : s.store.free = 256)
    (hfifo : s.store.fifo = []) (hqueued : ∀ c, (s.entry c).queued = 0) : Stored b l q s := by
  have htally (p : Descriptor → Bool) : s.store.tally p = 0 := by simp [CellStore.tally, hcells]
  refine ⟨fun _ => ?_, fun _ r _ => ⟨fun x => ?_, ?_⟩, fun _ c => ?_⟩
  · rw [BufferLaw, CellStore.queuedCells_eq_tally, htally, hfree, hfifo]
    rfl
  · rw [hcells]
    exact Nat.zero_le _
  · rw [hfifo]
    exact Nat.zero_le _
  · rw [hqueued, CellStore.cellsOf_eq_tally, htally]

/-! ### Receive queues -/

/-- A cell is enqueued with a buffer where both allow it, and else none of the laws' parts changes. -/
theorem Stored.offer (h : Stored b l q s) (x : QueueName) (d : Descriptor) : Stored b l q (s.offer x d) := by
  obtain ⟨hother, hfifo, -, hcase⟩ := s.offer_spec x d
  have hstation : (s.offer x d).station = s.station := by simp
  split at hcase
  · rename_i hroom
    obtain ⟨hqueue, hfree, hentry, hentries, -⟩ := hcase
    have hcells (y : QueueName) : ((s.offer x d).store.queue y).cells =
        if y = x then (s.store.queue x).cells ++ [d] else (s.store.queue y).cells := by
      split
      · rename_i hy
        rw [hy, hqueue]
      · rename_i hy
        rw [hother y hy]
    have htally (p : Descriptor → Bool) := CellStore.tally_change hcells p
    simp only [List.countP_append, List.countP_singleton] at htally
    obtain ⟨hbuffers, hlimits, hcounts⟩ := h
    refine ⟨fun hb => ?_, fun hl r hr => ?_, fun hq c => ?_⟩
    · have hlaw := hbuffers hb
      have hone := htally (fun _ => true)
      unfold BufferLaw at hlaw ⊢
      rw [CellStore.queuedCells_eq_tally] at hlaw ⊢
      rw [hfree, hfifo]
      simp only [↓reduceIte] at hone
      omega
    · rw [hstation] at hr
      obtain ⟨hqueues, hdata⟩ := hlimits hl r hr
      have hrecord : s.record = r := by unfold State.record; rw [hr]; rfl
      refine ⟨fun y => ?_, by rw [hfifo]; exact hdata⟩
      rw [hcells]
      split
      · rename_i hy
        rw [List.length_append, hy, ← hrecord]
        exact hroom.2
      · exact hqueues y
    · have hone := htally (fun d => d.channel = c)
      have hlaw := hcounts hq c
      rw [CellStore.cellsOf_eq_tally] at hlaw ⊢
      by_cases hc : c = d.channel
      · subst hc
        rw [hentry]
        simp only [decide_true, ↓reduceIte] at hone
        simp only
        omega
      · rw [hentries c hc]
        simp only [Ne.symm hc, decide_false, Bool.false_eq_true, ↓reduceIte] at hone
        omega
  · obtain ⟨hqueue, hfree, -, honly, -⟩ := hcase
    have hchannels : (s.offer x d).channels = s.channels := honly .channels (by simp)
    refine h.freed (n := 0) (fun y => ?_) hfree (by rw [hfifo]; rfl) (by rw [hstation])
      fun c => by rw [State.entry_of_channels hchannels]
    by_cases hy : y = x
    · rw [hy, hqueue]
    · rw [hother y hy]

/-- Descriptors that have left a queue give back their buffers and their places in the queued counts. -/
theorem State.dequeueds_spec (removed : List Descriptor) (s : State) :
    (removed.foldl State.dequeued s).store = { s.store with free := s.store.free + removed.length } ∧
      (removed.foldl State.dequeued s).station = s.station ∧
      ∀ c, ((removed.foldl State.dequeued s).entry c).queued =
        (s.entry c).queued - removed.countP (fun d => d.channel = c) := by
  induction removed generalizing s with
  | nil => exact ⟨rfl, rfl, fun _ => rfl⟩
  | cons d rest ih =>
    obtain ⟨hstore, hentry, hother⟩ := s.dequeued_spec d
    obtain ⟨ihstore, ihstation, ihqueued⟩ := ih (s.dequeued d)
    rw [List.foldl_cons]
    refine ⟨?_, ?_, fun c => ?_⟩
    · rw [ihstore, hstore, List.length_cons, Nat.add_assoc, Nat.add_comm 1]
    · rw [ihstation]
      simp
    · rw [ihqueued, List.countP_cons]
      by_cases hc : c = d.channel
      · subst hc
        rw [hentry]
        simp only [decide_true, ↓reduceIte]
        omega
      · rw [hother c hc]
        simp [Ne.symm hc]

/-- Descriptors leave one queue. -/
theorem Stored.removed (h : Stored b l q s) {x : QueueName} {r : ReceiveQueue} {removed : List Descriptor}
    (hr : (s.store.queue x).cells = removed ++ r.cells) :
    Stored b l q (removed.foldl State.dequeued (s.setQueue x r)) := by
  obtain ⟨hstore, hstation, hqueued⟩ := State.dequeueds_spec removed (s.setQueue x r)
  generalize removed.foldl State.dequeued (s.setQueue x r) = t at hstore hstation hqueued ⊢
  have hcells (y : QueueName) : (t.store.queue y).cells = if y = x then r.cells else (s.store.queue y).cells := by
    rw [hstore, CellStore.queue_free]
    exact CellStore.setQueue_cells ..
  have hfree : t.store.free = s.store.free + removed.length := by
    rw [hstore]
    exact congrArg (· + removed.length) (CellStore.setQueue_free ..)
  have hfifo : t.store.fifo = s.store.fifo := by
    rw [hstore]
    exact CellStore.setQueue_fifo ..
  have htally (p : Descriptor → Bool) := CellStore.tally_change hcells p
  simp only [hr, List.countP_append] at htally
  obtain ⟨hbuffers, hlimits, hcounts⟩ := h
  refine ⟨fun hb => ?_, fun hl r' hr' => ?_, fun hq c => ?_⟩
  · have hlaw := hbuffers hb
    have hone := htally (fun _ => true)
    unfold BufferLaw at hlaw ⊢
    rw [CellStore.queuedCells_eq_tally] at hlaw ⊢
    rw [hfree, hfifo]
    simp only [List.countP_true] at hone
    omega
  · rw [hstation] at hr'
    obtain ⟨hqueues, hdata⟩ := hlimits hl r' hr'
    refine ⟨fun y => ?_, by rw [hfifo]; exact hdata⟩
    have hy := hqueues y
    rw [hcells]
    split
    · rename_i hyx
      rw [hyx, hr, List.length_append] at hy
      rw [hyx]
      omega
    · exact hy
  · have hone := htally (fun d => d.channel = c)
    have hlaw := hcounts hq c
    rw [CellStore.cellsOf_eq_tally] at hlaw ⊢
    have hentry : (s.setQueue x r).entry c = s.entry c := rfl
    rw [hqueued, hentry]
    omega

/-! ### The transmit FIFO -/

theorem Stored.purgeFifo (h : Stored b l q s) (c : Channel) : Stored b l q (s.purgeFifo c) := by
  have hle := dataEntries_FifoPurged_le c s.store.fifo
  rw [FifoPurged_eq] at hle
  refine h.freed (fun x => ?_) rfl (Nat.add_sub_cancel' hle) rfl (fun _ => rfl)
  cases x <;> rfl

theorem Stored.dropHeadData (h : Stored b l q s) : Stored b l q s.dropHeadData := by
  unfold State.dropHeadData
  split
  · rename_i rest hf
    refine Stored.of_stock (s := (s.setFifo rest).freeBuffers 1)
      (h.freed (n := 1) (fun x => ?_) rfl ?_ rfl fun _ => rfl) (State.consumeMarkers_stock _)
    · cases x <;> rfl
    · rw [hf]
      exact (List.countP_cons_of_pos rfl).symm
  · exact h

theorem Stored.loseChannel (h : Stored b l q s) (i : Nat) (sl : Slot) (x : Station) :
    Stored b l q (s.loseChannel i sl x) := by
  have hpurged := (h.of_stock (s.freeSlot_stock i sl.channel (some x))).purgeFifo sl.channel
  unfold State.loseChannel
  dsimp only
  split
  · exact hpurged.of_stock (by simp)
  · exact hpurged.of_stock (by simp)

theorem Stored.acceptSend (h : Stored b l q s) (hfifo : dataEntries s.store.fifo < s.record.transmitLimit.toNat)
    (hfree : s.store.free ≠ 0) (c : Channel) (payload : List Octet) : Stored b l q (s.acceptSend c payload) := by
  unfold State.acceptSend
  split
  · rename_i i sl n hs
    have hdata (f : List FifoEntry) : dataEntries (f ++ [.data c n payload 0 false false]) = dataEntries f + 1 := by
      simp [dataEntries, FifoEntry.isData]
    obtain ⟨hbuffers, hlimits, hcounts⟩ := h
    refine ⟨fun hb => ?_, fun hl r hr => ⟨fun y => ?_, ?_⟩, hcounts⟩
    · have hlaw : s.store.free + s.store.queuedCells + dataEntries s.store.fifo = 256 := hbuffers hb
      show s.store.free - 1 + s.store.queuedCells + dataEntries (s.store.fifo ++ _) = 256
      rw [hdata]
      omega
    · refine le_of_eq_of_le ?_ ((hlimits hl r hr).1 y)
      cases y <;> rfl
    · have hrecord : s.record = r := congrArg (Option.getD · Config.unloadedRecord) hr
      show dataEntries (s.store.fifo ++ _) ≤ _
      rw [hdata, ← hrecord]
      exact hfifo
  · exact h

theorem Stored.sendRequest (h : Stored b l q s) {channel : Half} {length : Octet}
    (hc : firstFailing (s.sendChecks channel length) = none) (payload : List Octet) :
    Stored b l q (s.acceptSend (toChannel channel) payload) := by
  have hpass := firstFailing_eq_none hc
  simp only [State.sendChecks, List.mem_cons, List.not_mem_nil, or_false, forall_eq_or_imp, forall_eq,
    decide_eq_false_iff_not, not_le] at hpass
  obtain ⟨-, -, -, -, hfifo, hfree⟩ := hpass
  exact h.acceptSend hfifo hfree _ payload

/-! ### The station as a whole -/

theorem ChannelEntry.muted_queued (e : ChannelEntry) : e.muted.queued = e.queued := by
  rw [ChannelEntry.muted_eq]
  split <;> rfl

theorem Stored.enterMuted (h : Stored b l q s) (reason : MuteReason) : Stored b l q (s.enterMuted reason) := by
  obtain ⟨hstation, -, -, -, hstore, -⟩ := State.enterMuted_spec s reason
  refine h.freed (n := dataEntries s.store.fifo) (fun x => ?_) (by rw [hstore]) (by rw [hstore]; exact Nat.zero_add _)
    (by rw [hstation]) fun c => ?_
  · rw [hstore]
    cases x <;> rfl
  · rw [State.entry_of_mapEntries (s := s) (f := ChannelEntry.muted) ChannelEntry.muted_initial
      (by simp [State.enterMuted]) c]
    exact ChannelEntry.muted_queued _

theorem Stored.duplicateNumber (h : Stored b l q s) : Stored b l q s.duplicateNumber := by
  have hcounted : Stored b l q { s with span := { s.span with duplicates := countUp s.span.duplicates } } :=
    h.of_stock rfl
  unfold State.duplicateNumber
  dsimp only
  split
  · exact hcounted.of_stock (by simp)
  · exact hcounted.enterMuted _
  · exact hcounted.enterMuted _
  · exact hcounted
  · exact hcounted

theorem Stored.restarted (s : State) : Stored b l q s.restarted := by
  refine Stored.of_empty (fun x => by cases x <;> rfl) rfl rfl fun c => ?_
  rw [State.entry_of_mapEntries (s := s) (f := ChannelEntry.restarted) (by decide) rfl c]
  rfl

theorem Stored.afterReset (straps : Station) : Stored b l q (State.afterReset straps) :=
  Stored.of_empty (fun x => by cases x <;> rfl) rfl rfl fun _ => rfl

/-- A startup record is loaded only while nothing is stored (R152). -/
theorem Stored.acceptStartup (h : Stored b l q s) (hempty : s.store.queuesEmpty = true) (hfifo : s.store.fifo = [])
    (fields : StartupRecord) : Stored b l q (s.acceptStartup fields) := by
  have hnone (y : QueueName) : (s.store.queue y).cells = [] := by
    have hall := List.all_eq_true.mp hempty y (by cases y <;> simp [allQueues])
    exact List.isEmpty_iff.mp hall
  have hcells (y : QueueName) : ((s.acceptStartup fields).store.queue y).cells = (s.store.queue y).cells := by
    cases y <;> rfl
  obtain ⟨hbuffers, -, hcounts⟩ := h
  refine ⟨hbuffers, fun _ r _ => ⟨fun y => ?_, ?_⟩, hcounts⟩
  · rw [hcells, hnone]
    exact Nat.zero_le _
  · show dataEntries s.store.fifo ≤ _
    rw [hfifo]
    exact Nat.zero_le _

end

end Sys2Proof.Machine

/-! ## Every step keeps the laws of the buffers, the queue limits and the queued counts (O53) -/

namespace Sys2Proof.Machine

section
variable {b l q : Prop} {s t : State}

/-! ### Messages -/

theorem Stored.ownerIndicated (h : Stored b l q s) (c : Channel) (x : Station) :
    Stored b l q (s.ownerIndicated c x) := by
  have hremote : (s.setEntry c ((s.entry c).toRemote x)).stock = s.stock := State.setEntry_stock rfl
  unfold State.ownerIndicated
  split
  · exact h.of_stock (by simp [hremote])
  · exact h.of_stock (by simp [hremote])
  · split
    · exact h.of_stock (by simp)
    · exact h
  all_goals
    split
    · split
      · exact h.loseChannel ..
      · exact h.of_stock (by simp)
    · exact h

theorem Stored.channelTakes (h : Stored b l q s) (hd : Header) (body : Body) :
    Stored b l q (s.channelTakes hd body) := by
  unfold State.channelTakes
  split
  · exact h.ownerIndicated ..
  · split
    · exact h.of_stock (State.setEntry_stock rfl)
    · exact h

theorem Stored.routeCell (h : Stored b l q s) (hd : Header) (n : Seq) (payload : List Octet) (missing : Option Nat) :
    Stored b l q (s.routeCell hd n payload missing) := by
  unfold State.routeCell
  dsimp only
  split
  · exact h
  · split
    · exact h.offer ..
    · split
      · exact h.offer ..
      · split
        · exact h.offer ..
        · split
          · exact h.of_stock (by simp)
          · exact h

theorem Stored.classify (h : Stored b l q s) (hd : Header) (n : Seq) (payload : List Octet) :
    Stored b l q (s.classify hd n payload) := by
  unfold State.classify
  split
  · split
    · exact h.of_stock (by simp)
    · exact (h.of_stock (State.putContext_stock ..)).routeCell ..
  · exact h.routeCell ..

theorem Stored.consume (h : Stored b l q s) (hd : Header) (body : Body) : Stored b l q (s.consume hd body) := by
  cases body with
  | claim => exact h.of_stock (s.takeClaim_stock hd)
  | hold => exact h
  | announce => exact h
  | join => exact h.of_stock (s.takeJoin_stock hd)
  | admission next => exact h.of_stock (s.takeAdmit_stock hd next)
  | deny reason =>
    cases reason with
    | releasing => exact h.of_stock (s.takeDenyReleasing_stock hd)
    | notOwner => exact h.of_stock (s.takeDenyNotOwner_stock hd)
  | leave => exact h.of_stock (s.takeLeave_stock hd)
  | left => exact h.of_stock (s.takeLeft_stock hd)
  | drain => exact h.of_stock (s.takeDrain_stock hd)
  | drained => exact h.of_stock (s.takeDrained_stock hd)
  | release => exact h.of_stock (s.takeRelease_stock hd)
  | data n payload => exact h.classify hd n payload
  | beacon => exact h

theorem Stored.hear (h : Stored b l q s) (hd : Header) (body : Body) : Stored b l q (s.hear hd body) := by
  have hpeers := h.of_stock (s.peerTakes_stock hd body)
  by_cases hb : ∃ interval, body = .beacon interval
  · obtain ⟨interval, rfl⟩ := hb
    exact hpeers
  · rw [State.hear_eq (not_exists.mp hb)]
    exact (hpeers.channelTakes hd body).consume hd body

theorem Stored.receive (h : Stored b l q s) (hd : Header) (body : Option Body) : Stored b l q (s.receive hd body) := by
  unfold State.receive
  split
  · exact h
  · split
    · exact h.of_stock rfl
    · split
      · exact h.of_stock rfl
      · split
        · split
          · exact h
          · exact h.duplicateNumber
        · exact h.hear ..

/-! ### Transmissions -/

theorem Stored.loseContention (h : Stored b l q s) (sender : Sender) : Stored b l q (s.loseContention sender) := by
  unfold State.loseContention
  split
  · split
    · split
      · exact h.of_stock (by simp)
      · exact h.of_stock (by simp)
    · exact h
  · split
    · exact h.dropHeadData
    · exact h.of_stock (by simp)
  all_goals exact h.of_stock (by simp)

theorem Stored.echoTo (h : Stored b l q s) (sender : Sender) : Stored b l q (s.echoTo sender) := by
  unfold State.echoTo
  split
  case h_5 =>
    split
    · exact h.dropHeadData
    · exact h
  all_goals
    split
    · exact h.of_stock (by simp)
    · exact h

theorem Stored.failData (h : Stored b l q s) : Stored b l q s.failData := by
  unfold State.failData
  split
  · rename_i hf
    split
    · exact h.dropHeadData
    · split
      · exact Stored.dropHeadData (h.of_stock rfl)
      · exact h.of_stock (State.setFifo_stock (by rw [hf]; rfl))
  · exact h

theorem Stored.failTo (h : Stored b l q s) (sender : Sender) : Stored b l q (s.failTo sender) := by
  unfold State.failTo
  split
  case h_5 => exact h.failData
  all_goals
    split
    · exact h.of_stock (by simp)
    · exact h

theorem Stored.muteOnFailures (h : Stored b l q s) : Stored b l q s.muteOnFailures := by
  unfold State.muteOnFailures
  split
  · exact h.enterMuted _
  · exact h

/-! ### Commands -/

theorem Stored.of_next {u : State} (h : Stored b l q u)
    (he : (.next u : Host.Outcome State Fault Refusal) = .next t) : Stored b l q t := by
  cases he
  exact h

/-- The effect of a transaction of the local port, as exec answers it. -/
theorem Stored.of_transact (h : Stored b l q s) {effect : State → State}
    (he : (.next (s.transact effect) : Host.Outcome State Fault Refusal) = .next t)
    (hk : Stored b l q (effect s)) : Stored b l q t := by
  refine Stored.of_next ?_ he
  unfold State.transact
  split
  · exact h
  · split
    · exact h.of_stock rfl
    · exact hk

theorem Stored.execLoadStartup (h : Stored b l q s) {tag : Octet} {fields : StartupRecord}
    (he : execLoadStartup tag fields s = .next t) : Stored b l q t := by
  refine h.of_transact he ?_
  split
  · exact h.of_stock (by simp)
  · split
    · exact h.of_stock (by simp)
    · rename_i hstored
      rw [not_or, Bool.not_eq_false, ne_eq, not_not] at hstored
      obtain ⟨hempty, hfifo⟩ := hstored
      split
      · exact h.of_stock (by simp)
      · exact (h.acceptStartup hempty hfifo fields).of_stock (by simp)

theorem Stored.execSend (h : Stored b l q s) {tag : Octet} {channel : Half} {length : Octet} {payload : List Octet}
    (he : execSend tag channel length payload s = .next t) : Stored b l q t := by
  refine h.of_transact he ?_
  split
  · exact h.of_stock rfl
  · split
    · exact h.of_stock (by simp)
    · rename_i hc
      exact h.sendRequest hc _

theorem Stored.execSetAction (h : Stored b l q s) {tag : Octet} {channel : Half} {actions : Octet}
    (he : execSetAction tag channel actions s = .next t) : Stored b l q t := by
  refine h.of_transact he ?_
  split
  · exact h.of_stock (by simp)
  · split
    · exact h.of_stock (by simp)
    · refine h.of_stock ((State.respond_stock ..).trans (State.setEntry_stock ?_))
      rfl

theorem Stored.execTake (h : Stored b l q s) {tag queue : Octet} (he : execTake tag queue s = .next t) :
    Stored b l q t := by
  refine h.of_transact he ?_
  split
  · exact h.of_stock (by simp)
  · dsimp only
    split
    · exact h.of_stock (by simp)
    · rename_i d rest hcells
      exact Stored.of_stock (h.removed (removed := [d]) hcells) (State.respond_stock ..)

theorem Stored.execFlush (h : Stored b l q s) {tag queue : Octet} (he : execFlush tag queue s = .next t) :
    Stored b l q t := by
  refine h.of_transact he ?_
  split
  · exact h.of_stock (by simp)
  · dsimp only
    split
    · exact h.of_stock (by simp)
    · rename_i d rest hcells
      exact Stored.of_stock (h.removed (removed := d :: rest) (hcells.trans (List.append_nil _).symm))
        (State.respond_stock ..)

theorem Stored.execPowerOnReset (h : Stored b l q s) {edge : ResetEdge}
    (he : execPowerOnReset edge s = .next t) : Stored b l q t := by
  refine Stored.of_next ?_ he
  split
  · exact (Stored.afterReset s.station.number).of_stock rfl
  · rename_i straps selected
    split
    · exact (Stored.afterReset straps).of_stock rfl
    · exact h

theorem Stored.execLostContention (h : Stored b l q s) (he : execLostContention s = .next t) : Stored b l q t := by
  refine Stored.of_next ?_ he
  split
  · exact (h.of_stock (s.setAttempt_stock none)).loseContention _
  · exact h

theorem Stored.execEcho (h : Stored b l q s) (he : execEcho s = .next t) : Stored b l q t := by
  refine Stored.of_next ?_ he
  split
  · exact Stored.echoTo (h.of_stock (by simp)) _
  · exact h

theorem Stored.execFailedAttempt (h : Stored b l q s) {cause : AttemptFailure}
    (he : execFailedAttempt cause s = .next t) : Stored b l q t := by
  refine Stored.of_next ?_ he
  split
  · exact (Stored.failTo (h.of_stock (by simp)) _).muteOnFailures
  · exact h

theorem Stored.execMalformedMessage (h : Stored b l q s) {octets : List Octet}
    (he : execMalformedMessage octets s = .next t) : Stored b l q t := by
  refine Stored.of_next ?_ he
  split
  · exact h.receive ..
  · split
    · exact h.of_stock rfl
    · exact h

theorem Stored.execDuplicateNumberEvent (h : Stored b l q s) (he : execDuplicateNumberEvent s = .next t) :
    Stored b l q t := by
  refine Stored.of_next ?_ he
  split
  · exact h.duplicateNumber
  · exact h

/-- Every command keeps the laws. The commands that leave the buffers, the queues and the queued counts are settled
here, by the stock of what they do. -/
theorem Stored.exec (h : Stored b l q s) {c : Instr} (he : exec c s = .next t) : Stored b l q t := by
  cases c with
  | loadStartup tag fields => exact h.execLoadStartup (tag := tag) he
  | attach tag => exact h.of_transact he (h.of_stock (by split <;> simp))
  | withdraw tag => exact h.of_transact he (h.of_stock (by split <;> simp))
  | restart tag => exact h.of_transact he ((Stored.restarted s).of_stock (State.respond_stock ..))
  | readStation tag => exact h.of_transact he (h.of_stock (State.respond_stock ..))
  | claimRequest tag channel => exact h.of_transact he (h.of_stock (by split <;> simp))
  | releaseRequest tag channel => exact h.of_transact he (h.of_stock (by split <;> simp))
  | send tag channel length payload => exact h.execSend (tag := tag) he
  | joinRequest tag channel => exact h.of_transact he (h.of_stock (by split <;> simp))
  | leaveRequest tag channel => exact h.of_transact he (h.of_stock (by split <;> simp))
  | setAction tag channel actions => exact h.execSetAction (tag := tag) he
  | readChannel tag channel => exact h.of_transact he (h.of_stock (by split <;> simp))
  | setFilter tag parameters => exact h.of_transact he (h.of_stock (by split <;> simp))
  | readFilter tag index => exact h.of_transact he (h.of_stock (by split <;> simp))
  | take tag queue => exact h.execTake (tag := tag) he
  | flush tag queue => exact h.execFlush (tag := tag) he
  | readPeer tag station => exact h.of_transact he (h.of_stock (by split <;> simp))
  | readEvent tag => exact h.of_transact he (h.of_stock (by split <;> rfl))
  | abort tag => exact h.of_transact he (h.of_stock (by (repeat' split) <;> simp))
  | badRequest code => exact h.of_transact he (h.of_stock (by split <;> rfl))
  | incompleteRequest octets bits => exact h.of_transact he (h.of_stock (by split <;> rfl))
  | powerOnReset edge => exact h.execPowerOnReset he
  | transmitAttempt => exact Stored.of_next (h.of_stock (by (repeat' split) <;> simp)) he
  | lostContention => exact h.execLostContention he
  | echo => exact h.execEcho he
  | failedAttempt cause => exact h.execFailedAttempt (cause := cause) he
  | claimMessage header => exact (h.receive ..).of_next he
  | holdMessage header => exact (h.receive ..).of_next he
  | announceMessage header => exact (h.receive ..).of_next he
  | joinMessage header => exact (h.receive ..).of_next he
  | admitMessage header next => exact (h.receive ..).of_next he
  | denyMessage header reason => exact (h.receive ..).of_next he
  | leaveMessage header => exact (h.receive ..).of_next he
  | leftMessage header => exact (h.receive ..).of_next he
  | drainMessage header => exact (h.receive ..).of_next he
  | drainedMessage header => exact (h.receive ..).of_next he
  | releaseMessage header => exact (h.receive ..).of_next he
  | dataMessage header sequence length payload => exact (h.receive ..).of_next he
  | beaconMessage header interval => exact (h.receive ..).of_next he
  | malformedMessage octets => exact h.execMalformedMessage he
  | duplicateNumberEvent => exact h.execDuplicateNumberEvent he
  | claimWindowExpiry slot => exact Stored.of_next (h.of_stock (by (repeat' split) <;> simp)) he
  | resendTimerExpiry slot => exact Stored.of_next (h.of_stock (by (repeat' split) <;> simp)) he
  | drainTimerExpiry slot => exact Stored.of_next (h.of_stock (by (repeat' split) <;> simp)) he
  | joinResponseTimerExpiry context => exact Stored.of_next (h.of_stock (by (repeat' split) <;> simp)) he
  | leaveResponseTimerExpiry context => exact Stored.of_next (h.of_stock (by (repeat' split) <;> simp)) he
  | drainWaitTimerExpiry context => exact Stored.of_next (h.of_stock (by (repeat' split) <;> simp)) he
  | peerTimerExpiry station => exact Stored.of_next (h.of_stock (by (repeat' split) <;> simp)) he
  | presenceTimerExpiry => exact Stored.of_next (h.of_stock (by split <;> rfl)) he
  | listenTimerExpiry => exact Stored.of_next (h.of_stock (by split <;> simp)) he

/-- Every step keeps the laws. -/
theorem Stored.step (h : Stored b l q s) (he : step s = .next t) : Stored b l q t := by
  unfold Machine.step at he
  split at he
  · exact (h.of_stock s.tick_stock).of_next he
  · rename_i c rest _
    have hfront : Stored b l q ({ s with pending := rest } : State) := h.of_stock rfl
    exact hfront.exec he

end

/-- Settles O53: each law is kept whether or not the others hold. -/
theorem everyStepKeepsTheBuffersTheQueueLimitsAndTheQueuedCounts :
    Obligations.EveryStepKeepsTheBuffersTheQueueLimitsAndTheQueuedCounts := by
  unfold Obligations.EveryStepKeepsTheBuffersTheQueueLimitsAndTheQueuedCounts
  intro s t he
  have hbefore : Stored (BufferLaw s) (LimitLaw s) (QueuedLaw s) s := ⟨id, id, id⟩
  obtain ⟨hbuffers, hlimits, hcounts⟩ := hbefore.step he
  exact ⟨hbuffers, hlimits, hcounts⟩

end Sys2Proof.Machine

/-! ## Claiming: the requests CLAIM and JOIN (O13, O14), a CLAIM heard (O39), the timers of a slot (O49). -/

namespace Sys2Proof.Machine

/-! ### The first check that fails -/

/-- Checks that pass leave the decision to those behind them. -/
theorem firstFailing_append {common : Checks} (h : ∀ x ∈ common, x.1 = false) (more : Checks) :
    firstFailing (List.append common more) = firstFailing more := by
  induction common with
  | nil => rfl
  | cons x rest ih =>
    have hx : x.1 = false := h x (List.mem_cons_self ..)
    calc firstFailing (List.append (x :: rest) more)
        = if x.1 then some x.2 else firstFailing (List.append rest more) := rfl
      _ = firstFailing (List.append rest more) := if_neg (by simp [hx])
      _ = firstFailing more := ih fun y hy => h y (List.mem_cons_of_mem _ hy)

/-- A request that passes the common checks of R176 fails none of the model's. -/
theorem PassesCommonChecks.longChecks {s : State} {tag : Octet} (h : PassesCommonChecks s tag) :
    ∀ x ∈ s.longChecks tag, x.1 = false := by
  obtain ⟨-, htag, hfresh, hrequests, hevents⟩ := h
  have hbad : ¬ tag = 0#8 := htag
  simp [State.longChecks, hbad, hfresh, Config.requestPlaces, Config.eventPlaces, hrequests, hevents]

/-- No number below the bound is free exactly when each has a row. -/
theorem FMap.lowestFree_eq_none {α : Type} {m : FMap α} {n : Nat} :
    FMap.lowestFree m n = none ↔ ∀ i, i < n → FMap.find? m i ≠ none := by
  simp [FMap.lowestFree]

/-- The lowest free number is the one that has no row while all below it have. -/
theorem FMap.lowestFree_eq_some {α : Type} {m : FMap α} {n i : Nat} (hi : i < n) (hfree : FMap.find? m i = none)
    (hbelow : ∀ j, j < i → FMap.find? m j ≠ none) : FMap.lowestFree m n = some i := by
  unfold FMap.lowestFree
  rw [List.find?_range_eq_some]
  exact ⟨by simp [hfree], List.mem_range.mpr hi, fun j hj => by
    simpa using Option.isSome_iff_ne_none.mpr (hbelow j hj)⟩

/-- The checks of CLAIM behind the common ones, in order (R26). -/
theorem firstFailing_claimChecks {s : State} {tag : Octet} (h : PassesCommonChecks s tag) (channel : Half) :
    firstFailing (s.claimChecks tag channel) =
      if s.station.mode ≠ .active then some .notActive
      else if 1023 < channel.toNat then some .badChannel
      else if (s.entry (toChannel channel)).view = .heldLocal then some .alreadyOwner
      else if (s.entry (toChannel channel)).view = .claiming ∨ (s.entry (toChannel channel)).view = .announcing ∨
        (s.entry (toChannel channel)).view = .releasing then some .busy
      else if (s.entry (toChannel channel)).subscription ≠ .none then some .subscribed
      else if FMap.lowestFree s.slots 32 = none then some .noSlot
      else none := by
  unfold State.claimChecks
  rw [firstFailing_append h.longChecks]
  simp [firstFailing, isChannel, Config.slotCount, or_assoc]

/-- The checks of JOIN behind the common ones, in order (R67). -/
theorem firstFailing_joinChecks {s : State} {tag : Octet} (h : PassesCommonChecks s tag) (channel : Half) :
    firstFailing (s.joinChecks tag channel) =
      if s.station.mode ≠ .active then some .notActive
      else if 1023 < channel.toNat then some .badChannel
      else if (s.entry (toChannel channel)).view.isLocal = true then some .localOwner
      else if (s.entry (toChannel channel)).subscription ≠ .none then some .alreadyJoined
      else if FMap.lowestFree s.contexts 64 = none then some .noContext
      else none := by
  unfold State.joinChecks
  rw [firstFailing_append h.longChecks]
  simp [firstFailing, isChannel, Config.contextCount]

/-! ### CLAIM and JOIN refused -/

/-- A refused CLAIM answers the result of the check that failed, and does nothing else (R26). -/
theorem execClaimRequest_refused {s : State} {tag : Octet} {channel : Half} {r : Result} (h : PortOpen s)
    (hr : firstFailing (s.claimChecks tag channel) = some r) :
    ∃ t, exec (.claimRequest tag channel) s = .next t ∧ OnlyAnswers [r.code] s t := by
  refine ⟨s.respond r [], ?_, State.respond_onlyAnswers ..⟩
  show execClaimRequest tag channel s = _
  unfold execClaimRequest
  rw [State.transact_open h, hr]

/-- A refused JOIN answers the result of the check that failed, and does nothing else (R67). -/
theorem execJoinRequest_refused {s : State} {tag : Octet} {channel : Half} {r : Result} (h : PortOpen s)
    (hr : firstFailing (s.joinChecks tag channel) = some r) :
    ∃ t, exec (.joinRequest tag channel) s = .next t ∧ OnlyAnswers [r.code] s t := by
  refine ⟨s.respond r [], ?_, State.respond_onlyAnswers ..⟩
  show execJoinRequest tag channel s = _
  unfold execJoinRequest
  rw [State.transact_open h, hr]

/-- Settles O13: each clause is one branch of the ordered checks. -/
theorem claimAndJoinRequestsAreRefusedByTheFirstFailingCheck :
    Obligations.ClaimAndJoinRequestsAreRefusedByTheFirstFailingCheck := by
  refine ⟨?_, ?_⟩
  · rintro tag channel s e hcommon rfl
    have hfirst := firstFailing_claimChecks hcommon channel
    have hrefused (r : Result) (hr : firstFailing (s.claimChecks tag channel) = some r) :=
      execClaimRequest_refused hcommon.1 hr
    refine ⟨fun hmode => hrefused .notActive ?_, fun hmode hc => hrefused .badChannel ?_, fun hmode hc =>
      ⟨fun hview => hrefused .alreadyOwner ?_, fun hview => hrefused .busy ?_,
        fun hview hsub => hrefused .subscribed ?_, fun hview hsub hfull => hrefused .noSlot ?_⟩⟩
    · simp [hfirst, hmode]
    · simp [hfirst, hmode, hc]
    · simp [hfirst, hmode, Nat.not_lt.mpr hc, hview]
    · rcases hview with hview | hview | hview <;> simp [hfirst, hmode, Nat.not_lt.mpr hc, hview]
    · rcases hview with hview | hview <;> simp [hfirst, hmode, Nat.not_lt.mpr hc, hview, hsub]
    · have hslots : FMap.lowestFree s.slots 32 = none := FMap.lowestFree_eq_none.mpr hfull
      rcases hview with hview | hview <;> simp [hfirst, hmode, Nat.not_lt.mpr hc, hview, hsub, hslots]
  · rintro tag channel s e hcommon rfl
    have hfirst := firstFailing_joinChecks hcommon channel
    have hrefused (r : Result) (hr : firstFailing (s.joinChecks tag channel) = some r) :=
      execJoinRequest_refused hcommon.1 hr
    refine ⟨fun hmode => hrefused .notActive ?_, fun hmode hc => hrefused .badChannel ?_, fun hmode hc =>
      ⟨fun hview => hrefused .localOwner ?_, fun hview hsub => hrefused .alreadyJoined ?_,
        fun hview hsub hfull => hrefused .noContext ?_⟩⟩
    · simp [hfirst, hmode]
    · simp [hfirst, hmode, hc]
    · rcases hview with hview | hview | hview | hview <;>
        simp [hfirst, hmode, Nat.not_lt.mpr hc, hview, View.isLocal]
    · rcases hview with hview | hview <;> simp [hfirst, hmode, Nat.not_lt.mpr hc, hview, hsub, View.isLocal]
    · have hcontexts : FMap.lowestFree s.contexts 64 = none := FMap.lowestFree_eq_none.mpr hfull
      rcases hview with hview | hview <;>
        simp [hfirst, hmode, Nat.not_lt.mpr hc, hview, hsub, hcontexts, View.isLocal]

/-! ### CLAIM and JOIN accepted -/

/-- A CLAIM that passes its checks allocates the lowest free slot (R27). -/
theorem execClaimRequest_accepted {s : State} {tag : Octet} {channel : Half} {i : Nat} (h : PortOpen s)
    (hr : firstFailing (s.claimChecks tag channel) = none) (hi : FMap.lowestFree s.slots 32 = some i) :
    exec (.claimRequest tag channel) s = .next ((s.acceptClaim tag (toChannel channel) i).respond .ok []) := by
  show execClaimRequest tag channel s = _
  unfold execClaimRequest
  rw [State.transact_open h, hr, Config.slotCount, hi, Option.getD_some]

/-- A JOIN that passes its checks allocates the lowest free context (R68). -/
theorem execJoinRequest_accepted {s : State} {tag : Octet} {channel : Half} {i : Nat} (h : PortOpen s)
    (hr : firstFailing (s.joinChecks tag channel) = none) (hi : FMap.lowestFree s.contexts 64 = some i) :
    exec (.joinRequest tag channel) s = .next ((s.acceptJoin tag (toChannel channel) i).respond .ok []) := by
  show execJoinRequest tag channel s = _
  unfold execJoinRequest
  rw [State.transact_open h, hr, Config.contextCount, hi, Option.getD_some]

/-- What an accepted CLAIM writes: slot, entry and request, and nothing else (R24, R27). -/
theorem State.acceptClaim_spec (s : State) (tag : Octet) (c : Channel) (i : Nat) {t : State}
    (ht : t = (s.acceptClaim tag c i).respond .ok []) :
    t.slotAt i = some (.allocated c tag) ∧ t.entry c = (s.entry c).toLocal .claiming s.station.number i ∧
      t.port = { s.port with response := [0], requests := s.port.requests ++ [⟨tag, .claim, some c⟩] } ∧
      OtherSlots i s t ∧ OtherEntries c s t ∧ ChangesOnly [.slots, .channels, .port] s t := by
  subst ht
  have hslot := State.slotAt_of_insert (s := s) (t := (s.acceptClaim tag c i).respond .ok [])
    (sl := .allocated c tag) rfl
  have hentry (d : Channel) : ((s.acceptClaim tag c i).respond .ok []).entry d =
      if d = c then (s.entry c).toLocal .claiming s.station.number i else s.entry d :=
    (State.entry_of_channels (s := s.setEntry c ((s.entry c).toLocal .claiming s.station.number i)) rfl d).trans
      (State.entry_setEntry ..)
  refine ⟨(hslot i).trans (if_pos rfl), (hentry c).trans (if_pos rfl), rfl,
    fun j hj => (hslot j).trans (if_neg hj), fun d hd => (hentry d).trans (if_neg hd), fun p hp => ?_, rfl⟩
  cases p <;> simp_all [Part.same, State.acceptClaim]

/-- What an accepted JOIN writes: context, entry and request, and nothing else (R68). -/
theorem State.acceptJoin_spec (s : State) (tag : Octet) (c : Channel) (i : Nat) {t : State}
    (ht : t = (s.acceptJoin tag c i).respond .ok []) :
    t.contextAt i = some (.allocated c (s.entry c).joinDestination tag) ∧
      t.entry c = (s.entry c).subscribed .joining i ∧
      t.port = { s.port with response := [0], requests := s.port.requests ++ [⟨tag, .join, some c⟩] } ∧
      OtherContexts i s t ∧ OtherEntries c s t ∧ ChangesOnly [.contexts, .channels, .port] s t := by
  subst ht
  have hcontext := State.contextAt_of_insert (s := s) (t := (s.acceptJoin tag c i).respond .ok [])
    (k := .allocated c (s.entry c).joinDestination tag) rfl
  have hentry (d : Channel) : ((s.acceptJoin tag c i).respond .ok []).entry d =
      if d = c then (s.entry c).subscribed .joining i else s.entry d :=
    (State.entry_of_channels (s := s.setEntry c ((s.entry c).subscribed .joining i)) rfl d).trans
      (State.entry_setEntry ..)
  refine ⟨(hcontext i).trans (if_pos rfl), (hentry c).trans (if_pos rfl), rfl,
    fun j hj => (hcontext j).trans (if_neg hj), fun d hd => (hentry d).trans (if_neg hd), fun p hp => ?_, rfl⟩
  cases p <;> simp_all [Part.same, State.acceptJoin]

/-- A JOIN goes to the recorded owner, or to all stations while none is recorded (R15). -/
theorem ChannelEntry.joinDestination_eq {e : ChannelEntry} {destination : Station}
    (h : (e.view = .free ∧ destination = 0) ∨ (e.view = .heldRemote ∧ e.owner = some destination)) :
    e.joinDestination = destination := by
  unfold ChannelEntry.joinDestination
  rcases h with ⟨hview, rfl⟩ | ⟨hview, howner⟩
  · rw [if_neg (by simp [hview])]
  · rw [if_pos hview, howner, Option.getD_some]

/-- Settles O14: every check passes, so the lowest free index is allocated. -/
theorem claimAndJoinRequestsAllocateTheLowestFree : Obligations.ClaimAndJoinRequestsAllocateTheLowestFree := by
  refine ⟨?_, ?_⟩
  · intro tag channel s i hcommon hmode hc hview hsub hi hfree hbelow
    have hlowest : FMap.lowestFree s.slots 32 = some i := FMap.lowestFree_eq_some hi hfree hbelow
    have hpass : firstFailing (s.claimChecks tag channel) = none := by
      rcases hview with hview | hview <;>
        simp [firstFailing_claimChecks hcommon, hmode, Nat.not_lt.mpr hc, hview, hsub, hlowest]
    exact ⟨_, execClaimRequest_accepted hcommon.1 hpass hlowest, State.acceptClaim_spec s tag _ i rfl⟩
  · intro tag channel s i destination hcommon hmode hc hview hsub hi hfree hbelow
    have hlowest : FMap.lowestFree s.contexts 64 = some i := FMap.lowestFree_eq_some hi hfree hbelow
    have hpass : firstFailing (s.joinChecks tag channel) = none := by
      rcases hview with ⟨hview, -⟩ | ⟨hview, -⟩ <;>
        simp [firstFailing_joinChecks hcommon, hmode, Nat.not_lt.mpr hc, hview, hsub, hlowest, View.isLocal]
    have hspec := State.acceptJoin_spec s tag (toChannel channel) i rfl
    rw [ChannelEntry.joinDestination_eq hview] at hspec
    exact ⟨_, execJoinRequest_accepted hcommon.1 hpass hlowest, hspec⟩

/-! ### A CLAIM heard -/

theorem exec_claimMessage {s : State} {h : Header} (hp : FromPeer s h) :
    exec (.claimMessage h) s = .next ((s.peerTakes h .claim).takeClaim h) := by
  rw [show Instr.claimMessage h = messageCommand h .claim from rfl, exec_messageCommand h .claim s trivial,
    State.receive_fromPeer hp, State.hear_eq (by simp), State.channelTakes_other rfl (by simp)]
  rfl

/-- Between two stations that claim, the lower number goes on (R31). -/
theorem State.takeClaim_claiming {s : State} {h : Header} {i : Nat} {sl : Slot}
    (hv : (s.entry h.channel).view = .claiming) (hs : s.slotOf h.channel = some (i, sl)) :
    s.takeClaim h =
      if h.source < s.station.number then
        (s.freeSlot i sl.channel none).completeHeld sl.tag { result := .lostContest, station := some h.source }
      else s := by
  unfold State.takeClaim; rw [hv, hs]

/-- A committed slot shows its holding (R34). -/
theorem State.takeClaim_committed {s : State} {h : Header}
    (hv : (s.entry h.channel).view = .announcing ∨ (s.entry h.channel).view = .heldLocal ∨
      (s.entry h.channel).view = .releasing) :
    s.takeClaim h = s.addReply .hold h.channel h.source := by
  unfold State.takeClaim
  rcases hv with hv | hv | hv <;> rw [hv]

/-- A CLAIM for a channel without a slot changes nothing (R13). -/
theorem State.takeClaim_elsewhere {s : State} {h : Header}
    (hv : (s.entry h.channel).view = .free ∨ (s.entry h.channel).view = .heldRemote) : s.takeClaim h = s := by
  unfold State.takeClaim
  rcases hv with hv | hv <;> rw [hv]

theorem State.addReply_changesOnly (s : State) (kind : ReplyKind) (c : Channel) (x : Station) :
    ChangesOnly [.span] s (s.addReply kind c x) :=
  ⟨fun p hp => by cases p <;> simp_all [Part.same], by simp⟩

/-- A slot freed with its channel's view, and the request it holds completed: what the end of a claim does (R24, R31). -/
theorem State.endClaim_spec (s : State) (i : Nat) (c : Channel) (tag : Option Octet) (e : Ending) {t : State}
    (ht : t = (s.freeSlot i c none).completeHeld tag e) :
    t.slotAt i = none ∧ OtherSlots i s t ∧ t.entry c = (s.entry c).toFree ∧ OtherEntries c s t ∧ Ended tag e s t ∧
      WithdrawalTested s t ∧ ChangesOnly [.slots, .channels, .port, .events, .station] s t := by
  obtain ⟨hat, hothers, hentry, hentries, htested⟩ := State.freeSlot_spec s i c none
  have hslots : t.slots = (s.freeSlot i c none).slots := by simp [ht]
  have hchannels : t.channels = (s.freeSlot i c none).channels := by simp [ht]
  subst ht
  refine ⟨?_, ?_, ?_, ?_, ?_, htested.completeHeld .., ?_⟩
  · rw [State.slotAt_of_slots hslots, hat]
  · exact fun j hj => (State.slotAt_of_slots hslots j).trans (hothers j hj)
  · rw [State.entry_of_channels hchannels, hentry]
  · exact fun d hd => (State.entry_of_channels hchannels d).trans (hentries d hd)
  · exact (State.completeHeld_ended ..).of_same (by simp) (by simp)
  · exact ⟨fun p hp => by cases p <;> simp_all [Part.same], by simp⟩

/-- Settles O39: the receiver and the Peer Table first, then the owner side by the channel's view. -/
theorem claimMessageIsJudgedByTheChannelsView : Obligations.ClaimMessageIsJudgedByTheChannelsView := by
  rintro h s s₁ e hp rfl rfl
  have hexec := exec_claimMessage hp
  generalize s.peerTakes h .claim = u at *
  refine ⟨fun i sl hview hindex hat hchannel => ?_, fun hview => ?_, fun hview => ?_⟩
  · rw [State.takeClaim_claiming hview (State.slotOf_eq_some.mpr ⟨hindex, hat⟩)] at hexec
    refine ⟨fun hlow => ?_, fun hhigh => ?_⟩
    · rw [if_pos (BitVec.lt_def.mpr hlow), hchannel] at hexec
      exact ⟨_, hexec, State.endClaim_spec u i h.channel sl.tag _ rfl⟩
    · rw [if_neg (by rw [BitVec.lt_def]; omega)] at hexec
      exact hexec
  · rw [State.takeClaim_committed hview] at hexec
    exact ⟨_, hexec, State.addReply_span .., State.addReply_changesOnly ..⟩
  · rw [State.takeClaim_elsewhere hview] at hexec
    exact hexec

/-! ### The timers of a slot -/

theorem expired_iff {timer : Option Nat} : expired timer = true ↔ timer = some 0 := by
  simp [expired]

theorem State.putSlot_spec (s : State) (i : Nat) (sl : Slot) :
    (s.putSlot i sl).slotAt i = some sl ∧ OtherSlots i s (s.putSlot i sl) ∧
      ChangesOnly [.slots] s (s.putSlot i sl) := by
  have hslot := State.slotAt_of_insert (State.putSlot_slots s i sl)
  refine ⟨(hslot i).trans (if_pos rfl), fun j hj => (hslot j).trans (if_neg hj), fun p hp => ?_, rfl⟩
  cases p <;> simp_all [Part.same]

/-- The window has passed with no rival heard: the claim is committed (R33). -/
theorem State.commitClaim_spec (s : State) (i : Nat) (sl : Slot) :
    (s.commitClaim i sl).slotAt i =
        some { sl with phase := .announcing, window := none, owed := some ⟨.announce, 0, false⟩ } ∧
      OtherSlots i s (s.commitClaim i sl) ∧
      (s.commitClaim i sl).entry sl.channel = (s.entry sl.channel).toLocal .announcing s.station.number i ∧
      OtherEntries sl.channel s (s.commitClaim i sl) ∧ ChangesOnly [.slots, .channels] s (s.commitClaim i sl) := by
  obtain ⟨hat, hothers, honly⟩ := State.putSlot_spec s i
    { sl with phase := .announcing, window := none, owed := some (.fresh .announce) }
  exact ⟨hat, hothers, State.entry_setEntry_self .., fun d hd => State.entry_setEntry_other _ _ hd,
    (honly.mono (by simp)).trans ((State.setEntry_changesOnly ..).mono (by simp))⟩

/-- At a resend, nothing owed and an ANNOUNCE give way to a new DRAIN (R47). -/
theorem resendOwed_eq (owed : Option SlotOwed) :
    resendOwed owed =
      if owed = none ∨ (∃ o, owed = some o ∧ o.kind = .announce) then some ⟨.drain, 0, false⟩ else owed := by
  cases owed with
  | none => rfl
  | some o => by_cases hk : o.kind = .announce <;> simp [resendOwed, hk, SlotOwed.fresh]

theorem State.responseTimeout_loaded {s : State} {r : StartupRecord} (h : s.station.startup = some r) :
    s.responseTimeout = r.responseTimeout.toNat := by
  unfold State.responseTimeout State.record; rw [h, Option.getD_some]

section
variable {s : State} {i : Fin 32} {sl : Slot}

theorem execClaimWindowExpiry_slot (hs : s.slotAt i = some sl) :
    exec (.claimWindowExpiry i) s =
      .next (if sl.phase = .claiming ∧ sl.window = some 0 then s.commitClaim i sl else s) := by
  show execClaimWindowExpiry i s = _
  unfold execClaimWindowExpiry
  rw [show FMap.find? s.slots i.val = some sl from hs]
  simp only [expired_iff]

theorem execResendTimerExpiry_slot (hs : s.slotAt i = some sl) :
    exec (.resendTimerExpiry i) s =
      .next (if sl.resendTimer = some 0 then
          s.putSlot i { sl with resendTimer := some s.responseTimeout, owed := resendOwed sl.owed }
        else s) := by
  show execResendTimerExpiry i s = _
  unfold execResendTimerExpiry
  rw [show FMap.find? s.slots i.val = some sl from hs]
  simp only [expired_iff]

theorem execDrainTimerExpiry_slot (hs : s.slotAt i = some sl) :
    exec (.drainTimerExpiry i) s = .next (if sl.drainTimer = some 0 then s.putSlot i sl.force else s) := by
  show execDrainTimerExpiry i s = _
  unfold execDrainTimerExpiry
  rw [show FMap.find? s.slots i.val = some sl from hs]
  simp only [expired_iff]

end

/-- Settles O49: each timer by whether it has run out. -/
theorem slotTimerExpiriesMoveTheClaimAndTheDrain : Obligations.SlotTimerExpiriesMoveTheClaimAndTheDrain := by
  intro i s sl r hs hr
  have hwindow := execClaimWindowExpiry_slot hs
  have hresend := execResendTimerExpiry_slot hs
  have hdrain := execDrainTimerExpiry_slot hs
  refine ⟨fun hphase h0 => ?_, fun h0 => ?_, fun h0 => ?_, fun hleft => ?_, fun hleft => ?_, fun hleft => ?_⟩
  · rw [if_pos ⟨hphase, h0⟩] at hwindow
    exact ⟨_, hwindow, State.commitClaim_spec s i sl⟩
  · rw [if_pos h0, State.responseTimeout_loaded hr, resendOwed_eq] at hresend
    exact ⟨_, hresend, State.putSlot_spec ..⟩
  · rw [if_pos h0] at hdrain
    exact ⟨_, hdrain, State.putSlot_spec ..⟩
  · rw [if_neg fun h => hleft h.2] at hwindow
    exact hwindow
  · rw [if_neg hleft] at hresend
    exact hresend
  · rw [if_neg hleft] at hdrain
    exact hdrain

end Sys2Proof.Machine

/-! ## Release and drain: the requests RELEASE and SEND (O15, O16), a DRAIN and a DRAINED heard (O45), the timers of a
context (O50). -/

namespace Sys2Proof.Machine

theorem State.record_loaded {s : State} {r : StartupRecord} (h : s.station.startup = some r) : s.record = r := by
  unfold State.record; rw [h, Option.getD_some]

/-! ### RELEASE and SEND refused -/

theorem State.releasePending_iff (s : State) (c : Channel) :
    s.releasePending c = true ↔ ∃ r ∈ s.port.requests, r.kind = .release ∧ r.channel = some c := by
  simp [State.releasePending]

/-- The checks of RELEASE behind the common ones, in order (R42). -/
theorem firstFailing_releaseChecks {s : State} {tag : Octet} (h : PassesCommonChecks s tag) (channel : Half) :
    firstFailing (s.releaseChecks tag channel) =
      if 1023 < channel.toNat then some .badChannel
      else if (s.entry (toChannel channel)).view = .claiming ∨ (s.entry (toChannel channel)).view = .announcing ∨
        ((s.entry (toChannel channel)).view = .releasing ∧ s.releasePending (toChannel channel) = true) then some .busy
      else if (s.entry (toChannel channel)).view ≠ .heldLocal ∨ s.slotOf (toChannel channel) = none then some .notOwner
      else none := by
  unfold State.releaseChecks
  rw [firstFailing_append h.longChecks]
  simp [firstFailing, isChannel, or_assoc]

/-- The checks of SEND, in order (R111). -/
theorem firstFailing_sendChecks (s : State) (channel : Half) (length : Octet) :
    firstFailing (s.sendChecks channel length) =
      if 1023 < channel.toNat then some .badChannel
      else if (s.entry (toChannel channel)).view = .releasing then some .releasing
      else if (s.entry (toChannel channel)).view ≠ .heldLocal ∨ s.sendSequence (toChannel channel) = none then
        some .notOwner
      else if length.toNat = 0 ∨ 64 < length.toNat then some .badLength
      else if s.record.transmitLimit.toNat ≤ dataEntries s.store.fifo then some .txFull
      else if s.store.free = 0 then some .noBuffer
      else none := by
  simp [State.sendChecks, firstFailing, isChannel]

/-- The sequence of SEND is that of the slot the entry leads to (R38). -/
theorem State.sendSequence_eq_some {s : State} {c : Channel} {i : Nat} {sl : Slot} {q : Seq}
    (hindex : (s.entry c).slotIndex = some i) (hat : s.slotAt i = some sl) (hq : sl.transmitSequence = some q) :
    s.sendSequence c = some (i, sl, q) := by
  unfold State.sendSequence
  rw [State.slotOf_eq_some.mpr ⟨hindex, hat⟩, Option.bind_some, hq, Option.map_some]

/-- A refused RELEASE answers the result of the check that failed, and does nothing else (R42). -/
theorem execReleaseRequest_refused {s : State} {tag : Octet} {channel : Half} {r : Result} (h : PortOpen s)
    (hr : firstFailing (s.releaseChecks tag channel) = some r) :
    ∃ t, exec (.releaseRequest tag channel) s = .next t ∧ OnlyAnswers [r.code] s t := by
  refine ⟨s.respond r [], ?_, State.respond_onlyAnswers ..⟩
  show execReleaseRequest tag channel s = _
  unfold execReleaseRequest
  rw [State.transact_open h, hr]

/-- A refused SEND whose frame is whole answers the result of the check that failed, and does nothing else (R111). -/
theorem execSend_refused {s : State} {channel : Half} {length : Octet} {payload : List Octet} {r : Result}
    (h : PortOpen s) (hwhole : payload.length = length.toNat)
    (hr : firstFailing (s.sendChecks channel length) = some r) (tag : Octet) :
    ∃ t, exec (.send tag channel length payload) s = .next t ∧ OnlyAnswers [r.code] s t := by
  refine ⟨s.respond r [], ?_, State.respond_onlyAnswers ..⟩
  show execSend tag channel length payload s = _
  unfold execSend
  rw [State.transact_open h, if_neg (by omega), hr]

/-- Settles O15: each clause is one branch of the ordered checks. -/
theorem releaseAndSendAreRefusedByTheFirstFailingCheck :
    Obligations.ReleaseAndSendAreRefusedByTheFirstFailingCheck := by
  refine ⟨?_, ?_⟩
  · rintro tag channel s e pending hcommon rfl hpending
    rw [← State.releasePending_iff] at hpending
    have hfirst := firstFailing_releaseChecks hcommon channel
    have hrefused (r : Result) (hr : firstFailing (s.releaseChecks tag channel) = some r) :=
      execReleaseRequest_refused hcommon.1 hr
    refine ⟨fun hc => hrefused .badChannel ?_, fun hc => ⟨fun hview => hrefused .busy ?_,
      fun hview => hrefused .notOwner ?_⟩⟩
    · rw [hfirst, if_pos hc]
    · rw [hfirst, if_neg (Nat.not_lt.mpr hc), if_pos (by rwa [← hpending])]
    · rw [hfirst, if_neg (Nat.not_lt.mpr hc)]
      rcases hview with hview | hview | ⟨hview, hnone⟩
      · simp [hview]
      · simp [hview]
      · simp [hview, ← hpending, hnone]
  · rintro tag channel length payload s e hopen hwhole rfl
    have hfirst := firstFailing_sendChecks s channel length
    have hrefused (r : Result) (hr : firstFailing (s.sendChecks channel length) = some r) :=
      execSend_refused hopen hwhole hr tag
    refine ⟨fun hc => hrefused .badChannel ?_, fun hc => ⟨fun hview => hrefused .releasing ?_,
      fun hview => hrefused .notOwner ?_, fun i sl q hview hindex hat hq => ?_⟩⟩
    · rw [hfirst, if_pos hc]
    · rw [hfirst, if_neg (Nat.not_lt.mpr hc), if_pos hview]
    · rw [hfirst, if_neg (Nat.not_lt.mpr hc)]
      rcases hview with hview | hview | hview | hview <;> simp [hview]
    · have hlength : firstFailing (s.sendChecks channel length) =
          if length.toNat = 0 ∨ 64 < length.toNat then some .badLength
          else if s.record.transmitLimit.toNat ≤ dataEntries s.store.fifo then some .txFull
          else if s.store.free = 0 then some .noBuffer
          else none := by
        rw [hfirst, if_neg (Nat.not_lt.mpr hc), if_neg (by simp [hview]),
          if_neg (by simp [hview, State.sendSequence_eq_some hindex hat hq])]
      refine ⟨fun hbad => hrefused .badLength ?_, fun r hr hlow hhigh => ⟨fun hfull => hrefused .txFull ?_,
        fun hroom hfree => hrefused .noBuffer ?_⟩⟩
      · rw [hlength, if_pos hbad]
      · rw [hlength, if_neg (by omega), State.record_loaded hr, if_pos hfull]
      · rw [hlength, if_neg (by omega), State.record_loaded hr, if_neg (Nat.not_le.mpr hroom), if_pos hfree]

/-! ### RELEASE accepted -/

/-- A RELEASE that passes its checks starts the release of the slot its entry leads to (R43). -/
theorem execReleaseRequest_accepted {s : State} {tag : Octet} {channel : Half} {i : Nat} {sl : Slot} (h : PortOpen s)
    (hr : firstFailing (s.releaseChecks tag channel) = none) (hs : s.slotOf (toChannel channel) = some (i, sl)) :
    exec (.releaseRequest tag channel) s =
      .next (((s.startRelease i sl (some tag)).enterRequest tag .release (some (toChannel channel))).respond .ok []) := by
  show execReleaseRequest tag channel s = _
  unfold execReleaseRequest State.acceptRelease
  rw [State.transact_open h, hr, hs]

/-- What the release of a slot changes, as a reader sees it (R43). -/
theorem State.startRelease_frame (s : State) (i : Nat) (sl : Slot) (tag : Option Octet)
    (h : headMarkers s.store.fifo = []) :
    (s.startRelease i sl tag).slotAt i =
        some (if s.store.fifo = [] then SnapshotOf s { sl with phase := .releasing, tag := tag }
          else { sl with phase := .releasing, tag := tag }) ∧
      (s.startRelease i sl tag).entry sl.channel = (s.entry sl.channel).toLocal .releasing s.station.number i ∧
      OtherSlots i s (s.startRelease i sl tag) ∧ OtherEntries sl.channel s (s.startRelease i sl tag) ∧
      ChangesOnly [.slots, .channels, .store] s (s.startRelease i sl tag) := by
  obtain ⟨hslots, hchannels, -⟩ := State.startRelease_spec s i sl tag h
  refine ⟨?_, ?_, fun j hj => ?_, fun d hd => ?_, fun p hp => ?_, by simp⟩
  · rw [State.slotAt_of_insert hslots, if_pos rfl, State.snapshot_eq]
  · rw [State.entry_of_channels hchannels, State.entry_setEntry_self]
  · rw [State.slotAt_of_insert hslots, if_neg hj]
  · rw [State.entry_of_channels hchannels, State.entry_setEntry_other _ _ hd]
  · cases p <;> simp_all [Part.same]

/-- The drain snapshot with the timeouts of the loaded record (R45). -/
theorem SnapshotOf_loaded {s : State} {r : StartupRecord} (h : s.station.startup = some r) (sl : Slot) :
    SnapshotOf s sl =
      if sl.subscribers = 0 then
        { sl with awaited := 0, drainTimer := none, resendTimer := none, owed := some ⟨.release, 0, false⟩ }
      else
        { sl with awaited := sl.subscribers, drainTimer := some (10 * r.drainTimeout.toNat),
                  resendTimer := some r.responseTimeout.toNat, owed := some ⟨.drain, 0, false⟩ } := by
  unfold SnapshotOf; rw [State.record_loaded h]

/-- Settles O16: every check passes, and the release is that of `State.startRelease`. -/
theorem releaseRequestStartsTheReleaseBehindAMarker :
    Obligations.ReleaseRequestStartsTheReleaseBehindAMarker := by
  intro tag channel s i sl r hcommon hc hview hindex hat hchannel hhead hr
  have hof := State.slotOf_eq_some.mpr ⟨hindex, hat⟩
  have hpass : firstFailing (s.releaseChecks tag channel) = none := by
    simp [firstFailing_releaseChecks hcommon, Nat.not_lt.mpr hc, hview, hof]
  have hexec := execReleaseRequest_accepted hcommon.1 hpass hof
  obtain ⟨-, -, hstore⟩ := State.startRelease_spec s i sl (some tag) hhead
  obtain ⟨hslot, hentry, hslots, hentries, honly⟩ := State.startRelease_frame s i sl (some tag) hhead
  rw [hchannel] at hentry hentries hstore
  refine ⟨_, hexec, hslot.trans ?_, hentry, hstore, ?_, hslots, hentries, ?_⟩
  · rw [SnapshotOf_loaded hr]
    by_cases hf : s.store.fifo = [] <;> simp [hf]
  · simp [Result.code]
  · exact (honly.mono (by simp)).trans ⟨fun p hp => by cases p <;> simp_all [Part.same], rfl⟩

/-! ### A DRAIN heard -/

theorem exec_drainMessage {s : State} {h : Header} (hp : FromPeer s h) :
    exec (.drainMessage h) s = .next (((s.peerTakes h .drain).channelTakes h .drain).takeDrain h) := by
  rw [show Instr.drainMessage h = messageCommand h .drain from rfl, exec_messageCommand h .drain s trivial,
    State.receive_fromPeer hp, State.hear_eq (by simp)]
  rfl

/-- A DRAIN is taken by a JOINED or a DRAINING subscription to its source, and by no other. -/
theorem State.takeDrain_other {s : State} {h : Header}
    (hk : ∀ i k, s.contextOf h.channel = some (i, k) →
      k.owner ≠ some h.source ∨ k.state = .leaving ∨ k.state = .joining) :
    s.takeDrain h = s := by
  unfold State.takeDrain
  cases hc : s.contextOf h.channel with
  | none => rfl
  | some row =>
    rcases hk row.1 row.2 hc with howner | hstate | hstate
    · simp [howner]
    · simp [hstate]
    · simp [hstate]

/-- A DRAINING context, as the first DRAIN makes it (R57). -/
def Context.drains (k : Context) (wait : Nat) : Context :=
  { k with state := .draining, drainedSent := false, drainWait := some wait }

theorem State.takeDrain_joined {s : State} {h : Header} {i : Nat} {k : Context}
    (hc : s.contextOf h.channel = some (i, k)) (ho : k.owner = some h.source) (hs : k.state = .joined) :
    s.takeDrain h =
      (s.putContext i
        (if (s.entry h.channel).queued = 0 then (k.drains s.drainWaitTime).oweDrained
          else k.drains s.drainWaitTime)).setEntry h.channel ((s.entry h.channel).subscribed .draining i) := by
  unfold State.takeDrain
  rw [hc]
  dsimp only
  rw [if_pos ho, hs]
  rfl

theorem State.takeDrain_draining {s : State} {h : Header} {i : Nat} {k : Context}
    (hc : s.contextOf h.channel = some (i, k)) (ho : k.owner = some h.source) (hs : k.state = .draining) :
    s.takeDrain h = if (s.entry h.channel).queued = 0 then s.putContext i k.oweDrained else s := by
  unfold State.takeDrain
  rw [hc]
  dsimp only
  rw [if_pos ho, hs]

/-- DRAINED is owed to the owner, and not twice (R58). -/
theorem Context.oweDrained_eq {k : Context} {owner : Station} (ho : k.owner = some owner) :
    k.oweDrained =
      if ∃ o, k.owed = some o ∧ o.kind = .drained then k else { k with owed := some ⟨.drained, owner, 0, false⟩ } := by
  unfold Context.oweDrained
  rw [ho]
  cases k.owed <;> simp [ContextOwed.fresh]

theorem State.putContext_spec (s : State) (i : Nat) (k : Context) :
    (s.putContext i k).contextAt i = some k ∧ OtherContexts i s (s.putContext i k) ∧
      ChangesOnly [.contexts] s (s.putContext i k) := by
  have hcontext := State.contextAt_of_insert (State.putContext_contexts s i k)
  refine ⟨(hcontext i).trans (if_pos rfl), fun j hj => (hcontext j).trans (if_neg hj), fun p hp => ?_, rfl⟩
  cases p <;> simp_all [Part.same]

theorem State.drainWaitTime_loaded {s : State} {r : StartupRecord} (h : s.station.startup = some r) :
    s.drainWaitTime = 2 * (10 * r.drainTimeout.toNat) := by
  unfold State.drainWaitTime State.drainTimeout; rw [State.record_loaded h]

/-- The first DRAIN (R57): the context DRAINING with its entry, and DRAINED owed at once when no cell is queued. -/
theorem State.takeDrain_joined_spec {s : State} {h : Header} {i : Nat} {k : Context}
    (hc : s.contextOf h.channel = some (i, k)) (ho : k.owner = some h.source) (hs : k.state = .joined) :
    (s.takeDrain h).contextAt i =
        some (if (s.entry h.channel).queued = 0 then (k.drains s.drainWaitTime).oweDrained
          else k.drains s.drainWaitTime) ∧
      (s.takeDrain h).entry h.channel = (s.entry h.channel).subscribed .draining i ∧
      OtherContexts i s (s.takeDrain h) ∧ OtherEntries h.channel s (s.takeDrain h) ∧
      ChangesOnly [.contexts, .channels] s (s.takeDrain h) := by
  rw [State.takeDrain_joined hc ho hs]
  obtain ⟨hcontext, hothers, honly⟩ := State.putContext_spec s i
    (if (s.entry h.channel).queued = 0 then (k.drains s.drainWaitTime).oweDrained else k.drains s.drainWaitTime)
  exact ⟨hcontext, State.entry_setEntry_self .., hothers, fun d hd => State.entry_setEntry_other _ _ hd,
    (honly.mono (by simp)).trans ((State.setEntry_changesOnly ..).mono (by simp))⟩

/-- A DRAIN heard again (R58): DRAINED owed when no cell is queued and it is not owed yet. -/
theorem State.takeDrain_draining_spec {s : State} {h : Header} {i : Nat} {k : Context}
    (hc : s.contextOf h.channel = some (i, k)) (ho : k.owner = some h.source) (hs : k.state = .draining) :
    (s.takeDrain h).contextAt i =
        some (if (s.entry h.channel).queued = 0 ∧ ¬ (∃ o, k.owed = some o ∧ o.kind = .drained) then
            { k with owed := some ⟨.drained, h.source, 0, false⟩ }
          else k) ∧
      OtherContexts i s (s.takeDrain h) ∧ ChangesOnly [.contexts] s (s.takeDrain h) := by
  rw [State.takeDrain_draining hc ho hs]
  by_cases hqueued : (s.entry h.channel).queued = 0
  · have howed : k.oweDrained =
        if (s.entry h.channel).queued = 0 ∧ ¬ (∃ o, k.owed = some o ∧ o.kind = .drained) then
          { k with owed := some ⟨.drained, h.source, 0, false⟩ }
        else k := by
      simp only [Context.oweDrained_eq ho, hqueued, true_and, ite_not]
    rw [if_pos hqueued, ← howed]
    exact State.putContext_spec ..
  · rw [if_neg hqueued, if_neg fun h => hqueued h.1]
    exact ⟨(State.contextOf_eq_some.mp hc).2, fun _ _ => rfl, ChangesOnly.refl ..⟩

/-! ### A DRAINED heard -/

theorem exec_drainedMessage {s : State} {h : Header} (hp : FromPeer s h) :
    exec (.drainedMessage h) s = .next ((s.peerTakes h .drained).takeDrained h) := by
  rw [show Instr.drainedMessage h = messageCommand h .drained from rfl, exec_messageCommand h .drained s trivial,
    State.receive_fromPeer hp, State.hear_eq (by simp), State.channelTakes_other rfl (by simp)]
  rfl

/-- A DRAINED for another station, or for a channel without a slot, confirms nothing. -/
theorem State.takeDrained_elsewhere {s : State} {h : Header}
    (hd : h.destination ≠ s.station.number ∨ (s.entry h.channel).slotIndex = none) : s.takeDrained h = s := by
  unfold State.takeDrained State.addressed
  rcases hd with hd | hd
  · simp [hd]
  · simp [State.slotOf_eq_none hd]

theorem State.takeDrained_slot {s : State} {h : Header} {i : Nat} {sl : Slot} (hd : h.destination = s.station.number)
    (hc : s.slotOf h.channel = some (i, sl)) :
    s.takeDrained h = if sl.phase = .releasing then s.putSlot i (sl.confirm h.source) else s := by
  unfold State.takeDrained State.addressed
  rw [if_pos (by simp [hd]), hc]

/-- A station that is not awaited confirms nothing; the last that is awaited closes the drain (R48, R49). -/
theorem Slot.confirm_eq (x : Station) (sl : Slot) :
    sl.confirm x =
      if hasStation sl.awaited x = false then sl
      else if removeStation sl.awaited x = 0 then
        { sl with awaited := 0, drainTimer := none, resendTimer := none, owed := some ⟨.release, 0, false⟩ }
      else { sl with awaited := removeStation sl.awaited x } := by
  unfold Slot.confirm
  cases hasStation sl.awaited x with
  | false => rfl
  | true =>
    by_cases h0 : removeStation sl.awaited x = 0
    · simp only [h0, Slot.closeDrain, SlotOwed.fresh, ↓reduceIte, reduceCtorEq]
    · simp only [h0, ↓reduceIte, reduceCtorEq]

theorem State.putSlot_same {s : State} {i : Nat} {sl : Slot} (h : s.slotAt i = some sl) (j : Nat) :
    (s.putSlot i sl).slotAt j = s.slotAt j := by
  rw [State.slotAt_of_insert (State.putSlot_slots s i sl)]
  split
  · subst_vars; exact h.symm
  · rfl

/-- Settles O45: a DRAIN by the context the entry names, a DRAINED by the slot. -/
theorem drainAndDrainedMessagesCarryTheDrain : Obligations.DrainAndDrainedMessagesCarryTheDrain := by
  refine ⟨?_, ?_⟩
  · rintro h s s₁ r hp rfl hr
    have hexec := exec_drainMessage hp
    generalize (s.peerTakes h .drain).channelTakes h .drain = u at *
    refine ⟨fun hnone => ?_, fun i k hindex hat _ => ?_⟩
    · rw [State.takeDrain_other fun i k hik => by rw [State.contextOf_eq_none hnone] at hik; cases hik] at hexec
      exact hexec
    have hof := State.contextOf_eq_some.mpr ⟨hindex, hat⟩
    refine ⟨fun hother => ?_, fun howner hjoined => ?_, fun howner hdraining => ?_⟩
    · rw [State.takeDrain_other fun j k' hjk => ?_] at hexec
      · exact hexec
      · obtain ⟨rfl, rfl⟩ := Prod.mk.inj (Option.some.inj (hof.symm.trans hjk))
        exact hother
    · obtain ⟨hcontext, hentry, hothers, hentries, honly⟩ := State.takeDrain_joined_spec hof howner hjoined
      rw [State.drainWaitTime_loaded hr] at hcontext
      refine ⟨_, hexec, hentry, hentries, fun hqueued => ?_, fun hqueued howed => ?_, hothers, honly⟩
      · exact hcontext.trans (congrArg some (if_neg hqueued))
      · rw [if_pos hqueued, Context.oweDrained_eq (k := k.drains _) howner, if_neg (by simp [Context.drains, howed])]
          at hcontext
        exact hcontext
    · exact ⟨_, hexec, State.takeDrain_draining_spec hof howner hdraining⟩
  · rintro h s s₁ hp rfl
    have hexec := exec_drainedMessage hp
    generalize s.peerTakes h .drained = u at *
    refine ⟨fun helsewhere => ?_, fun i sl hdestination hindex hat => ?_⟩
    · rw [State.takeDrained_elsewhere helsewhere] at hexec
      exact hexec
    rw [State.takeDrained_slot hdestination (State.slotOf_eq_some.mpr ⟨hindex, hat⟩), Slot.confirm_eq] at hexec
    refine ⟨fun hnone => ?_, fun hphase hawaited => ?_⟩
    · by_cases hphase : sl.phase = .releasing
      · rw [if_pos hphase, if_pos (hnone.resolve_left (not_not.mpr hphase))] at hexec
        exact ⟨_, hexec, State.putSlot_same hat, (State.putSlot_spec ..).2.2⟩
      · rw [if_neg hphase] at hexec
        exact ⟨_, hexec, fun _ => rfl, ChangesOnly.refl ..⟩
    · rw [if_pos hphase, if_neg (by simp [hawaited])] at hexec
      exact ⟨_, hexec, State.putSlot_spec ..⟩

/-! ### The timers of a context -/

theorem State.attemptLimit_loaded {s : State} {r : StartupRecord} (h : s.station.startup = some r) :
    s.attemptLimit = r.attemptLimit.toNat := by
  unfold State.attemptLimit; rw [State.record_loaded h]

/-- A JOIN goes to the owner of a HELD_REMOTE view, and to all stations in every other view (R15). -/
theorem ChannelEntry.joinDestination_of_view {e : ChannelEntry} {destination : Station}
    (h : (e.view ≠ .heldRemote ∧ destination = 0) ∨ (e.view = .heldRemote ∧ e.owner = some destination)) :
    e.joinDestination = destination := by
  unfold ChannelEntry.joinDestination
  rcases h with ⟨hview, rfl⟩ | ⟨hview, howner⟩
  · rw [if_neg hview]
  · rw [if_pos hview, howner, Option.getD_some]

/-- A context freed with its entry's subscription, and the request it holds completed: what the end of an exchange does
(R66, R69, R76). -/
theorem State.endExchange_spec (s : State) (i : Nat) (c : Channel) (tag : Option Octet) (e : Ending) {t : State}
    (ht : t = (s.freeContext i c).completeHeld tag e) :
    t.contextAt i = none ∧ OtherContexts i s t ∧ t.entry c = (s.entry c).unsubscribed ∧ OtherEntries c s t ∧
      Ended tag e s t ∧ WithdrawalTested s t ∧ ChangesOnly [.contexts, .channels, .port, .events, .station] s t := by
  obtain ⟨hat, hothers, hentry, hentries, htested⟩ := State.freeContext_spec s i c
  have hcontexts : t.contexts = (s.freeContext i c).contexts := by simp [ht]
  have hchannels : t.channels = (s.freeContext i c).channels := by simp [ht]
  subst ht
  refine ⟨?_, ?_, ?_, ?_, ?_, htested.completeHeld .., ?_⟩
  · rw [State.contextAt_of_contexts hcontexts, hat]
  · exact fun j hj => (State.contextAt_of_contexts hcontexts j).trans (hothers j hj)
  · rw [State.entry_of_channels hchannels, hentry]
  · exact fun d hd => (State.entry_of_channels hchannels d).trans (hentries d hd)
  · exact (State.completeHeld_ended ..).of_same (by simp) (by simp)
  · exact ⟨fun p hp => by cases p <;> simp_all [Part.same], by simp⟩

/-- The release taken as implied (R63): a subscription that ends with a notification, and holds no request. -/
theorem State.implyRelease_spec (s : State) (i : Nat) {k : Context} {owner : Station} (ho : k.owner = some owner) :
    (s.implyRelease i k).contextAt i = none ∧ OtherContexts i s (s.implyRelease i k) ∧
      (s.implyRelease i k).entry k.channel = (s.entry k.channel).toFree.unsubscribed ∧
      OtherEntries k.channel s (s.implyRelease i k) ∧
      (s.implyRelease i k).events = (Notified (.channelReleased k.channel .implied owner) s).events ∧
      WithdrawalTested s (s.implyRelease i k) ∧
      ChangesOnly [.contexts, .channels, .events, .station] s (s.implyRelease i k) := by
  have hnotified := Notified_of_same (s := s) (u := s.setEntry k.channel (s.entry k.channel).toFree)
    (.channelReleased k.channel .implied owner) rfl rfl
  obtain ⟨hat, hothers, hentry, hentries, hended, htested, -⟩ :=
    State.endSubscription_spec (s.setEntry k.channel (s.entry k.channel).toFree) i k.channel
      (.channelReleased k.channel .implied owner) none { result := .ok } (t := s.implyRelease i k)
      (by unfold State.implyRelease; rw [ho]; rfl)
  refine ⟨hat, hothers, ?_, fun d hd => ?_, hended.2.trans hnotified.1, htested.of_station rfl,
    fun p hp => ?_, by simp⟩
  · rw [hentry, State.entry_setEntry_self]
  · exact (hentries d hd).trans (State.entry_setEntry_other _ _ hd)
  · cases p <;> simp_all [Part.same]

section
variable {s : State} {i : Fin 64} {k : Context}

theorem execJoinResponseTimerExpiry_context (hs : s.contextAt i = some k) :
    exec (.joinResponseTimerExpiry i) s =
      .next (if k.state = .joining ∧ k.responseTimer = some 0 then s.retryJoin i k else s) := by
  show execJoinResponseTimerExpiry i s = _
  unfold execJoinResponseTimerExpiry
  rw [show FMap.find? s.contexts i.val = some k from hs]
  simp only [expired_iff]

theorem execLeaveResponseTimerExpiry_context (hs : s.contextAt i = some k) :
    exec (.leaveResponseTimerExpiry i) s =
      .next (if k.state = .leaving ∧ k.responseTimer = some 0 then s.retryLeave i k else s) := by
  show execLeaveResponseTimerExpiry i s = _
  unfold execLeaveResponseTimerExpiry
  rw [show FMap.find? s.contexts i.val = some k from hs]
  simp only [expired_iff]

theorem execDrainWaitTimerExpiry_context (hs : s.contextAt i = some k) :
    exec (.drainWaitTimerExpiry i) s =
      .next (if k.state = .draining ∧ k.drainWait = some 0 then s.implyRelease i k else s) := by
  show execDrainWaitTimerExpiry i s = _
  unfold execDrainWaitTimerExpiry
  rw [show FMap.find? s.contexts i.val = some k from hs]
  simp only [expired_iff]

end

theorem State.retryJoin_eq {s : State} {r : StartupRecord} (hr : s.station.startup = some r) (i : Nat) {k : Context}
    {used : Nat} (hu : k.attemptsUsed = some used) :
    s.retryJoin i k =
      if used < r.attemptLimit.toNat then
        s.putContext i
          { k with responseTimer := none, owed := some ⟨.join, (s.entry k.channel).joinDestination, 0, false⟩ }
      else (s.freeContext i k.channel).completeHeld k.tag { result := .noOwner } := by
  unfold State.retryJoin
  rw [hu, State.attemptLimit_loaded hr]
  rfl

theorem State.retryLeave_eq {s : State} {r : StartupRecord} (hr : s.station.startup = some r) (i : Nat) {k : Context}
    {used : Nat} {owner : Station} (hu : k.attemptsUsed = some used) (ho : k.owner = some owner) :
    s.retryLeave i k =
      if used < r.attemptLimit.toNat then
        s.putContext i { k with responseTimer := none, owed := some ⟨.leave, owner, 0, false⟩ }
      else (s.freeContext i k.channel).completeHeld k.tag { result := .unconfirmed } := by
  unfold State.retryLeave
  rw [hu, ho, State.attemptLimit_loaded hr]
  rfl

/-- Settles O50: each timer by whether it has run out, and then by the attempts used. -/
theorem contextTimerExpiriesRetryOrEndTheExchange : Obligations.ContextTimerExpiriesRetryOrEndTheExchange := by
  intro i s k r hs hr
  have hjoin := execJoinResponseTimerExpiry_context hs
  have hleave := execLeaveResponseTimerExpiry_context hs
  have hdrain := execDrainWaitTimerExpiry_context hs
  refine ⟨fun used hstate h0 hused => ?_, fun used owner hstate h0 hused howner => ?_, fun owner hstate h0 howner => ?_,
    fun hleft => ⟨?_, ?_⟩, fun hleft => ?_⟩
  · rw [if_pos ⟨hstate, h0⟩, State.retryJoin_eq hr i hused] at hjoin
    refine ⟨fun hlow => ?_, fun hlimit => ?_⟩
    · rw [if_pos hlow] at hjoin
      obtain ⟨hat, hothers, honly⟩ := State.putContext_spec s i
        { k with responseTimer := none, owed := some ⟨.join, (s.entry k.channel).joinDestination, 0, false⟩ }
      refine ⟨_, hjoin, fun destination hview => ?_, hothers, honly⟩
      rw [hat, ChannelEntry.joinDestination_of_view hview]
    · rw [if_neg (Nat.not_lt.mpr hlimit)] at hjoin
      exact ⟨_, hjoin, State.endExchange_spec s i k.channel k.tag _ rfl⟩
  · rw [if_pos ⟨hstate, h0⟩, State.retryLeave_eq hr i hused howner] at hleave
    refine ⟨fun hlow => ?_, fun hlimit => ?_⟩
    · rw [if_pos hlow] at hleave
      exact ⟨_, hleave, State.putContext_spec ..⟩
    · rw [if_neg (Nat.not_lt.mpr hlimit)] at hleave
      exact ⟨_, hleave, State.endExchange_spec s i k.channel k.tag _ rfl⟩
  · rw [if_pos ⟨hstate, h0⟩] at hdrain
    exact ⟨_, hdrain, State.implyRelease_spec s i howner⟩
  · rw [if_neg fun h => hleft h.2] at hjoin
    exact hjoin
  · rw [if_neg fun h => hleft h.2] at hleave
    exact hleave
  · rw [if_neg fun h => hleft h.2] at hdrain
    exact hdrain

end Sys2Proof.Machine

/-! ## Subscriptions: the request LEAVE (O19), a JOIN (O41), an admission (O42), a DENY (O43), a LEAVE and a LEFT (O44)
heard. -/

namespace Sys2Proof.Machine

/-! ### What the subscription's operations change -/

/-- A context written and shown by its channel's entry (R4). -/
theorem State.showContext_spec (s : State) (i : Nat) (k : Context) (c : Channel) (st : SubscriptionState) {t : State}
    (ht : t = (s.putContext i k).setEntry c ((s.entry c).subscribed st i)) :
    t.contextAt i = some k ∧ OtherContexts i s t ∧ t.entry c = (s.entry c).subscribed st i ∧ OtherEntries c s t ∧
      ChangesOnly [.contexts, .channels] s t := by
  subst ht
  obtain ⟨hcontext, hothers, honly⟩ := State.putContext_spec s i k
  exact ⟨hcontext, hothers, State.entry_setEntry_self .., fun d hd => State.entry_setEntry_other _ _ hd,
    (honly.mono (by simp)).trans ((State.setEntry_changesOnly ..).mono (by simp))⟩

/-- While a context is there something remains, so a completion's test of R159 leaves the Station Controller alone. -/
theorem State.completeHeld_station {s : State} {i : Nat} {k : Context} (hk : s.contextAt i = some k)
    (tag : Option Octet) (e : Ending) : (s.completeHeld tag e).station = s.station := by
  have hremains : (s.completeHeld tag e).nothingRemains = false :=
    State.contexts_ne_nil (i := i) ((State.contextAt_of_contexts (by simp) i).trans hk)
  cases tag with
  | none => rfl
  | some n =>
    cases hr : s.requestWith n with
    | none => exact congrArg State.station (State.complete_none e hr)
    | some r =>
      have htested : WithdrawalTested s (s.completeHeld (some n) e) := by
        show WithdrawalTested s (s.complete n e)
        unfold State.complete
        rw [hr]
        exact State.testWithdrawal_tested rfl
      unfold WithdrawalTested at htested
      rw [htested, if_neg (by simp [hremains])]

/-- A request entered and answered is the local port's alone (R172, R177). -/
theorem State.enterRequest_respond_changesOnly (s : State) (tag : Octet) (kind : RequestKind) (c : Option Channel)
    (r : Result) (data : List Octet) : ChangesOnly [.port] s ((s.enterRequest tag kind c).respond r data) :=
  ⟨fun p hp => by cases p <;> simp_all [Part.same], rfl⟩

/-! ### LEAVE requested -/

/-- The checks of LEAVE behind the common ones, in order (R75). -/
theorem firstFailing_leaveChecks {s : State} {tag : Octet} (h : PassesCommonChecks s tag) (channel : Half) :
    firstFailing (s.leaveChecks tag channel) =
      if 1023 < channel.toNat then some .badChannel
      else if (s.entry (toChannel channel)).subscription = .none ∨
        (s.entry (toChannel channel)).subscription = .joining ∨ s.contextOf (toChannel channel) = none then
          some .notJoined
      else if (s.entry (toChannel channel)).subscription = .leaving then some .busy
      else none := by
  unfold State.leaveChecks
  rw [firstFailing_append h.longChecks]
  simp [firstFailing, isChannel, or_assoc]

/-- A refused LEAVE answers the result of the check that failed, and does nothing else (R75). -/
theorem execLeaveRequest_refused {s : State} {tag : Octet} {channel : Half} {r : Result} (h : PortOpen s)
    (hr : firstFailing (s.leaveChecks tag channel) = some r) :
    ∃ t, exec (.leaveRequest tag channel) s = .next t ∧ OnlyAnswers [r.code] s t := by
  refine ⟨s.respond r [], ?_, State.respond_onlyAnswers ..⟩
  show execLeaveRequest tag channel s = _
  unfold execLeaveRequest
  rw [State.transact_open h, hr]

/-- A LEAVE that passes its checks starts the leave of the context its entry leads to (R75). -/
theorem execLeaveRequest_accepted {s : State} {tag : Octet} {channel : Half} {i : Nat} {k : Context} (h : PortOpen s)
    (hr : firstFailing (s.leaveChecks tag channel) = none) (hk : s.contextOf (toChannel channel) = some (i, k)) :
    exec (.leaveRequest tag channel) s =
      .next (((s.startLeave i k (some tag)).enterRequest tag .leave (some (toChannel channel))).respond .ok []) := by
  show execLeaveRequest tag channel s = _
  unfold execLeaveRequest State.acceptLeave
  rw [State.transact_open h, hr, hk]

/-- LEAVE becomes owed to the owner, whatever the context owed (R75). -/
theorem Context.leaving_eq {k : Context} {owner : Station} (ho : k.owner = some owner) (tag : Option Octet) :
    k.leaving tag =
      { k with state := .leaving, owed := some ⟨.leave, owner, 0, false⟩, attemptsUsed := some 0,
               responseTimer := none, drainWait := none, tag := tag } := by
  unfold Context.leaving ContextOwed.fresh
  rw [ho, Option.getD_some]

/-- Settles O19: each refusal is one branch of the ordered checks; an accepted LEAVE is `State.startLeave`. -/
theorem leaveRequestIsCheckedAndMakesTheContextLeaving :
    Obligations.LeaveRequestIsCheckedAndMakesTheContextLeaving := by
  rintro tag channel s e hcommon rfl
  have hfirst := firstFailing_leaveChecks hcommon channel
  have hrefused (r : Result) (hr : firstFailing (s.leaveChecks tag channel) = some r) :=
    execLeaveRequest_refused hcommon.1 hr
  refine ⟨fun hc => hrefused .badChannel ?_, fun hc => ⟨fun hsub => hrefused .notJoined ?_,
    fun i k hindex hat hchannel => ?_⟩⟩
  · rw [hfirst, if_pos hc]
  · rw [hfirst, if_neg (Nat.not_lt.mpr hc), if_pos (hsub.imp_right .inl)]
  have hof := State.contextOf_eq_some.mpr ⟨hindex, hat⟩
  refine ⟨fun hleaving => hrefused .busy ?_, fun owner hsub howner => ?_⟩
  · simp [hfirst, Nat.not_lt.mpr hc, hof, hleaving]
  · have hpass : firstFailing (s.leaveChecks tag channel) = none := by
      rcases hsub with hsub | hsub <;> simp [hfirst, Nat.not_lt.mpr hc, hof, hsub]
    obtain ⟨hcontext, hothers, hentry, hentries, honly⟩ :=
      State.showContext_spec s i (k.leaving (some tag)) k.channel .leaving (t := s.startLeave i k (some tag)) rfl
    rw [Context.leaving_eq howner] at hcontext
    rw [hchannel] at hentry hentries
    refine ⟨_, execLeaveRequest_accepted hcommon.1 hpass hof, hcontext, hentry, rfl, hothers, hentries, ?_⟩
    exact (honly.mono (by simp)).trans ((State.enterRequest_respond_changesOnly ..).mono (by simp))

/-! ### A peer's message as its consumer sees it -/

/-- An intact message of a peer, no BEACON, goes through the three blocks (R9, R135). -/
theorem exec_fromPeer {s : State} {h : Header} {b : Body} (hp : FromPeer s h) (hb : IntactBody b)
    (hkind : ∀ interval, b ≠ .beacon interval) :
    exec (messageCommand h b) s = .next (((s.peerTakes h b).channelTakes h b).consume h b) := by
  rw [exec_messageCommand h b s hb, State.receive_fromPeer hp, State.hear_eq hkind]

/-- A kind that the Channel Table does not act on reaches its consumer behind the Peer Table alone (R10, R12). -/
theorem exec_fromPeer_unlearned {s : State} {h : Header} {b : Body} (hp : FromPeer s h) (hb : IntactBody b)
    (hkind : ∀ interval, b ≠ .beacon interval) (hi : ownerIndicating b = false) (hr : b ≠ .release) :
    exec (messageCommand h b) s = .next ((s.peerTakes h b).consume h b) := by
  rw [exec_fromPeer hp hb hkind, State.channelTakes_other hi hr]

theorem State.addressed_iff {s : State} {h : Header} : s.addressed h = true ↔ h.destination = s.station.number :=
  decide_eq_true_iff

theorem State.addressedOrAll_iff {s : State} {h : Header} :
    s.addressedOrAll h = true ↔ h.destination = s.station.number ∨ h.destination = 0 := by
  unfold State.addressedOrAll
  rw [Bool.or_eq_true, State.addressed_iff, decide_eq_true_iff]

theorem State.addressedOrAll_eq_false {s : State} {h : Header} (hs : h.destination ≠ s.station.number)
    (h0 : h.destination ≠ 0) : s.addressedOrAll h = false := by
  rw [Bool.eq_false_iff, Ne, State.addressedOrAll_iff]
  exact not_or.mpr ⟨hs, h0⟩

/-- A message to all stations is not one to this station, whose number is not 0 (R133). -/
theorem State.addressed_of_all {s : State} {h : Header} (hn : s.station.number ≠ 0) (hd : h.destination = 0) :
    ¬ s.addressed h = true := by
  rw [State.addressed_iff, hd]
  exact Ne.symm hn

/-! ### A JOIN heard -/

/-- The oldest DATA entry of a channel is the first from the FIFO's head (R71, R113). -/
theorem oldestSequence_eq_findSome? (c : Channel) (fifo : List FifoEntry) :
    oldestSequence c fifo = fifo.findSome? fun entry =>
      match entry with
      | .data d n .. => if d = c then some n else none
      | .marker _ => none := by
  induction fifo with
  | nil => rfl
  | cons entry rest ih =>
    cases entry with
    | data d n =>
      by_cases hd : d = c <;> simp [oldestSequence, hd, ih]
    | marker d => simp [oldestSequence, ih]

/-- A slot written, then a reply added: neither sees the other. -/
theorem State.putSlot_addReply_spec (s : State) (i : Nat) (sl : Slot) (kind : ReplyKind) (c : Channel) (x : Station)
    {t : State} (ht : t = (s.putSlot i sl).addReply kind c x) :
    t.slotAt i = some sl ∧ OtherSlots i s t ∧ t.span = SpanAfterReply s kind c x ∧
      ChangesOnly [.slots, .span] s t := by
  obtain ⟨hat, hothers, honly⟩ := State.putSlot_spec s i sl
  have hslots : t.slots = (s.putSlot i sl).slots := by simp [ht]
  refine ⟨?_, fun j hj => ?_, ?_, ?_⟩
  · rw [State.slotAt_of_slots hslots, hat]
  · rw [State.slotAt_of_slots hslots, hothers j hj]
  · rw [ht]
    exact State.addReply_span ..
  · rw [ht]
    exact (honly.mono (by simp)).trans ((State.addReply_changesOnly ..).mono (by simp))

theorem State.takeJoin_elsewhere {s : State} {h : Header} (hs : h.destination ≠ s.station.number)
    (h0 : h.destination ≠ 0) : s.takeJoin h = s := by
  unfold State.takeJoin
  rw [if_pos (State.addressedOrAll_eq_false hs h0)]

section
variable {s : State} {h : Header} (hd : h.destination = s.station.number ∨ h.destination = 0)
include hd

/-- A holder admits, from its oldest queued cell on, or from the next cell when none is queued (R71). -/
theorem State.takeJoin_held {i : Nat} {sl : Slot} {q : Seq} (hv : (s.entry h.channel).view = .heldLocal)
    (hs : s.slotOf h.channel = some (i, sl)) (hq : sl.transmitSequence = some q) :
    s.takeJoin h =
      (s.putSlot i { sl with subscribers := addStation sl.subscribers h.source }).addReply
        (.admission ((oldestSequence h.channel s.store.fifo).getD q)) h.channel h.source := by
  unfold State.takeJoin
  rw [if_neg (ne_false_of_eq_true (State.addressedOrAll_iff.mpr hd)), hv, hs]
  simp only [hq, Option.getD_some]

/-- A releasing holder denies (R70). -/
theorem State.takeJoin_releasing (hv : (s.entry h.channel).view = .releasing) :
    s.takeJoin h = s.addReply (.deny .releasing) h.channel h.source := by
  unfold State.takeJoin
  rw [if_neg (ne_false_of_eq_true (State.addressedOrAll_iff.mpr hd)), hv]

/-- A claimant is silent (R32, R70). -/
theorem State.takeJoin_claimant (hv : (s.entry h.channel).view = .claiming ∨ (s.entry h.channel).view = .announcing) :
    s.takeJoin h = s := by
  unfold State.takeJoin
  rw [if_neg (ne_false_of_eq_true (State.addressedOrAll_iff.mpr hd))]
  rcases hv with hv | hv <;> rw [hv]

/-- Who has no holding denies only when asked by number (R70). -/
theorem State.takeJoin_stranger (hv : (s.entry h.channel).view = .free ∨ (s.entry h.channel).view = .heldRemote) :
    s.takeJoin h = if s.addressed h then s.addReply (.deny .notOwner) h.channel h.source else s := by
  unfold State.takeJoin
  rw [if_neg (ne_false_of_eq_true (State.addressedOrAll_iff.mpr hd))]
  rcases hv with hv | hv <;> rw [hv]

end

/-- Settles O41: by the destination, and then by the channel's view. -/
theorem joinMessageIsAdmittedDeniedOrIgnored : Obligations.JoinMessageIsAdmittedDeniedOrIgnored := by
  rintro h s s₁ e hp hnumber rfl rfl
  have hexec : exec (.joinMessage h) s = .next ((s.peerTakes h .join).takeJoin h) :=
    exec_fromPeer_unlearned (b := .join) hp trivial (by simp) rfl (by simp)
  rw [← State.peerTakes_number s h .join] at hnumber
  generalize s.peerTakes h .join = u at *
  refine ⟨fun hs h0 => ?_, fun hd => ⟨fun i sl q hview hindex hat hq => ?_, fun hview => ?_, fun hview => ?_,
    fun hview h0 => ?_, fun hview hs => ?_⟩⟩
  · rwa [State.takeJoin_elsewhere hs h0] at hexec
  · rw [State.takeJoin_held hd hview (State.slotOf_eq_some.mpr ⟨hindex, hat⟩) hq, oldestSequence_eq_findSome?] at hexec
    exact ⟨_, hexec, State.putSlot_addReply_spec u i _ _ h.channel h.source rfl⟩
  · rw [State.takeJoin_releasing hd hview] at hexec
    exact ⟨_, hexec, State.addReply_span .., State.addReply_changesOnly ..⟩
  · rwa [State.takeJoin_claimant hd hview] at hexec
  · rwa [State.takeJoin_stranger hd hview, if_neg (State.addressed_of_all hnumber h0)] at hexec
  · rw [State.takeJoin_stranger hd hview, if_pos (State.addressed_iff.mpr hs)] at hexec
    exact ⟨_, hexec, State.addReply_span .., State.addReply_changesOnly ..⟩

/-! ### An admission heard -/

/-- A JOINED context, as the owner's answer makes it (R72). -/
def Context.admitted (k : Context) (owner : Station) (next : Seq) : Context :=
  { k with state := .joined, owner := some owner, expected := some next, owed := none, attemptsUsed := none,
           responseTimer := none, tag := none }

theorem State.takeAdmit_elsewhere {s : State} {h : Header} (hd : h.destination ≠ s.station.number) (next : Seq) :
    s.takeAdmit h next = s := by
  unfold State.takeAdmit
  rw [if_neg (mt State.addressed_iff.mp hd)]

section
variable {s : State} {h : Header} (hd : h.destination = s.station.number) (next : Seq)
include hd

theorem State.takeAdmit_context {i : Nat} {k : Context} (hk : s.contextOf h.channel = some (i, k)) :
    s.takeAdmit h next =
      if k.state = .joining then
        ((s.putContext i (k.admitted h.source next)).setEntry h.channel
          ((s.entry h.channel).subscribed .joined i)).completeHeld k.tag { result := .ok, station := some h.source }
      else s := by
  unfold State.takeAdmit
  rw [if_pos (State.addressed_iff.mpr hd), hk]
  rfl

/-- An admission without a context: its sender is told that the station left, unless the channel is its own (R79). -/
theorem State.takeAdmit_unasked (hk : s.contextOf h.channel = none) :
    s.takeAdmit h next =
      if (s.entry h.channel).view.isLocal = true then s else s.addReply .cleanupLeave h.channel h.source := by
  unfold State.takeAdmit
  rw [if_pos (State.addressed_iff.mpr hd), hk]

end

/-- A JOINING context admitted (R72): the context and its entry JOINED, and the JOIN completed. -/
theorem State.admission_spec (s : State) (i : Nat) (k : Context) (c : Channel) (tag : Option Octet) (e : Ending)
    {t : State} (ht : t = ((s.putContext i k).setEntry c ((s.entry c).subscribed .joined i)).completeHeld tag e) :
    t.contextAt i = some k ∧ OtherContexts i s t ∧ t.entry c = (s.entry c).subscribed .joined i ∧
      OtherEntries c s t ∧ Ended tag e s t ∧ ChangesOnly [.contexts, .channels, .port, .events] s t := by
  generalize hu : (s.putContext i k).setEntry c ((s.entry c).subscribed .joined i) = u at ht
  obtain ⟨hat, hothers, hentry, hentries, honly⟩ := State.showContext_spec s i k c .joined hu.symm
  have hcontexts : t.contexts = u.contexts := by simp [ht]
  have hchannels : t.channels = u.channels := by simp [ht]
  have hstation : t.station = u.station := ht ▸ State.completeHeld_station hat tag e
  refine ⟨?_, fun j hj => ?_, ?_, fun d hd => ?_, ?_, (honly.mono (by simp)).trans ⟨fun p hp => ?_, by simp [ht]⟩⟩
  · rw [State.contextAt_of_contexts hcontexts, hat]
  · rw [State.contextAt_of_contexts hcontexts, hothers j hj]
  · rw [State.entry_of_channels hchannels, hentry]
  · rw [State.entry_of_channels hchannels, hentries d hd]
  · rw [ht]
    exact (State.completeHeld_ended u tag e).of_same (honly.1 .port (by simp)) (honly.1 .events (by simp))
  · cases p <;> simp_all [Part.same]

/-- Settles O42: by the destination, and then by the context the entry names. -/
theorem admitMessageJoinsTheContextOrDrawsACleanupLeave :
    Obligations.AdmitMessageJoinsTheContextOrDrawsACleanupLeave := by
  rintro h next s s₁ hp rfl
  have hexec : exec (.admitMessage h next) s = .next
      (((s.peerTakes h (.admission next)).channelTakes h (.admission next)).takeAdmit h next) :=
    exec_fromPeer (b := .admission next) hp trivial (by simp)
  generalize (s.peerTakes h (.admission next)).channelTakes h (.admission next) = u at *
  refine ⟨fun hd => ?_, fun hd => ⟨fun i k hindex hat => ?_, fun hnone => ?_⟩⟩
  · rwa [State.takeAdmit_elsewhere hd] at hexec
  · rw [State.takeAdmit_context hd next (State.contextOf_eq_some.mpr ⟨hindex, hat⟩)] at hexec
    refine ⟨fun hjoining => ?_, fun hother => ?_⟩
    · rw [if_pos hjoining] at hexec
      exact ⟨_, hexec, State.admission_spec u i (k.admitted h.source next) h.channel k.tag _ rfl⟩
    · rwa [if_neg hother] at hexec
  · rw [State.takeAdmit_unasked hd next (State.contextOf_eq_none hnone)] at hexec
    refine ⟨fun hview => ?_, fun hlocal => ?_⟩
    · rw [if_neg (by rcases hview with hview | hview <;> simp [hview, View.isLocal])] at hexec
      exact ⟨_, hexec, State.addReply_span .., State.addReply_changesOnly ..⟩
    · rwa [if_pos hlocal] at hexec

/-! ### A DENY heard -/

/-- A DENY whose reason octet names no reason is malformed (R134). -/
theorem exec_denyMessage_malformed {s : State} {reason : Octet} (hon : s.receiverOn = true) (h1 : reason ≠ 1)
    (h2 : reason ≠ 2) (h : Header) : exec (.denyMessage h reason) s = .next s.countMalformed := by
  have hreason : denyBody? reason = none := by
    have hcode : DenyReason.ofCode? reason = none := by
      unfold DenyReason.ofCode?
      split
      · exact absurd (BitVec.eq_of_toNat_eq ‹_›) h1
      · exact absurd (BitVec.eq_of_toNat_eq ‹_›) h2
      · rfl
    unfold denyBody?
    rw [hcode, Option.map_none]
  show Host.Outcome.next (s.receive h (denyBody? reason)) = _
  rw [hreason]
  unfold State.receive
  rw [if_neg (by simp [hon])]

section
variable {s : State} {h : Header}

/-- A DENY with reason RELEASING for another station, or for a channel without a context, ends nothing (R73). -/
theorem State.takeDenyReleasing_elsewhere
    (hd : h.destination ≠ s.station.number ∨ (s.entry h.channel).contextIndex = none) : s.takeDenyReleasing h = s := by
  unfold State.takeDenyReleasing
  rcases hd with hd | hd
  · rw [if_neg (mt State.addressed_iff.mp hd)]
  · simp [State.contextOf_eq_none hd]

theorem State.takeDenyReleasing_context (hd : h.destination = s.station.number) {i : Nat} {k : Context}
    (hk : s.contextOf h.channel = some (i, k)) :
    s.takeDenyReleasing h =
      if k.state = .joining then s.endJoin i k { result := .denied, station := some h.source } else s := by
  unfold State.takeDenyReleasing
  rw [if_pos (State.addressed_iff.mpr hd), hk]

/-- A DENY with reason NOT_OWNER for another station, or for a channel without a context, changes nothing (R73). -/
theorem State.takeDenyNotOwner_elsewhere
    (hd : h.destination ≠ s.station.number ∨ (s.entry h.channel).contextIndex = none) : s.takeDenyNotOwner h = s := by
  unfold State.takeDenyNotOwner
  rcases hd with hd | hd
  · rw [if_neg (mt State.addressed_iff.mp hd)]
  · simp [State.contextOf_eq_none hd]

end

/-- A JOINING context that turns to all stations (R15). -/
def Context.joinsAll (k : Context) : Context := { k with responseTimer := none, owed := some (.fresh .join 0) }

/-- The view that misled a JOIN is FREE again, and the JOIN goes to all stations or, at the limit, ends (R15, R73). -/
def State.rejoin (s : State) (c : Channel) (i : Nat) (k : Context) : State :=
  if s.attemptLimit ≤ k.attemptsUsed.getD 0 then
    (s.setEntry c (s.entry c).toFree).endJoin i k { result := .noOwner }
  else if k.owed.any (fun o => o.onWire) then s.setEntry c (s.entry c).toFree
  else (s.setEntry c (s.entry c).toFree).putContext i k.joinsAll

theorem State.takeDenyNotOwner_context {s : State} {h : Header} (hd : h.destination = s.station.number) {i : Nat}
    {k : Context} (hk : s.contextOf h.channel = some (i, k)) :
    s.takeDenyNotOwner h =
      if k.state = .joining ∧ (s.entry h.channel).view = .heldRemote ∧ (s.entry h.channel).owner = some h.source then
        s.rejoin h.channel i k
      else s := by
  unfold State.takeDenyNotOwner
  rw [if_pos (State.addressed_iff.mpr hd), hk]
  rfl

/-- At the attempt limit the JOIN ends without an owner (R15, R69). -/
theorem State.rejoin_limit_spec {s : State} {i : Nat} {k : Context} {n : Nat} (hn : k.attemptsUsed = some n)
    (hlimit : s.attemptLimit ≤ n) {t : State} (ht : t = s.rejoin k.channel i k) :
    t.contextAt i = none ∧ OtherContexts i s t ∧ t.entry k.channel = (s.entry k.channel).toFree.unsubscribed ∧
      OtherEntries k.channel s t ∧ Ended k.tag { result := .noOwner } s t ∧ WithdrawalTested s t ∧
      ChangesOnly [.contexts, .channels, .port, .events, .station] s t := by
  unfold State.rejoin at ht
  rw [hn, Option.getD_some, if_pos hlimit] at ht
  obtain ⟨hat, hothers, hentry, hentries, hended, htested, honly⟩ :=
    State.endExchange_spec (s.setEntry k.channel (s.entry k.channel).toFree) i k.channel k.tag _ ht
  refine ⟨hat, hothers, ?_, fun d hd => ?_, hended.of_same rfl rfl, htested.of_station rfl,
    ((State.setEntry_changesOnly ..).mono (by simp)).trans honly⟩
  · rw [hentry, State.entry_setEntry_self]
  · rw [hentries d hd, State.entry_setEntry_other _ _ hd]

/-- Below the limit a JOIN that is not on the wire is owed anew, to all stations (R15). -/
theorem State.rejoin_below_spec {s : State} {c : Channel} {i : Nat} {k : Context} {n : Nat}
    (hk : s.contextAt i = some k) (hn : k.attemptsUsed = some n) (hlow : n < s.attemptLimit) {t : State}
    (ht : t = s.rejoin c i k) :
    t.entry c = (s.entry c).toFree ∧ OtherEntries c s t ∧
      ((∃ o, k.owed = some o ∧ o.onWire = true) → t.contextAt i = some k) ∧
      ((∀ o, k.owed = some o → o.onWire = false) →
        t.contextAt i = some { k with responseTimer := none, owed := some ⟨.join, 0, 0, false⟩ }) ∧
      OtherContexts i s t ∧ ChangesOnly [.contexts, .channels] s t := by
  have hfree : ChangesOnly [.contexts, .channels] s (s.setEntry c (s.entry c).toFree) :=
    (State.setEntry_changesOnly ..).mono (by simp)
  unfold State.rejoin at ht
  rw [hn, Option.getD_some, if_neg (Nat.not_le.mpr hlow)] at ht
  by_cases hwire : ∃ o, k.owed = some o ∧ o.onWire = true
  · have hany : k.owed.any (fun o => o.onWire) = true := by
      obtain ⟨o, ho, hw⟩ := hwire
      rw [ho]; exact hw
    rw [if_pos hany] at ht
    subst ht
    refine ⟨State.entry_setEntry_self .., fun d hd => State.entry_setEntry_other _ _ hd, fun _ => hk, fun hoff => ?_,
      fun _ _ => rfl, hfree⟩
    obtain ⟨o, ho, hw⟩ := hwire
    exact absurd (hoff o ho) (by simp [hw])
  · have hany : ¬ k.owed.any (fun o => o.onWire) = true := by
      cases ho : k.owed with
      | none => simp
      | some o => exact fun hw => hwire ⟨o, ho, hw⟩
    rw [if_neg hany] at ht
    obtain ⟨hat, hothers, honly⟩ := State.putContext_spec (s.setEntry c (s.entry c).toFree) i k.joinsAll
    subst ht
    exact ⟨State.entry_setEntry_self .., fun d hd => State.entry_setEntry_other _ _ hd, fun h => absurd h hwire,
      fun _ => hat, hothers, hfree.trans (honly.mono (by simp))⟩

/-- Settles O43: by the reason, then the destination and the context, and for NOT_OWNER by the attempts used. -/
theorem denyMessageEndsOrReaddressesTheJoin : Obligations.DenyMessageEndsOrReaddressesTheJoin := by
  refine ⟨?_, ?_, ?_⟩
  · intro h reason s hon h1 h2
    refine ⟨_, exec_denyMessage_malformed hon h1 h2 h, rfl, fun p hp => ?_, rfl⟩
    cases p <;> simp_all [Part.same, State.countMalformed]
  · rintro h s s₁ hp rfl
    have hexec : exec (.denyMessage h 1) s = .next
        (((s.peerTakes h (.deny .releasing)).channelTakes h (.deny .releasing)).takeDenyReleasing h) :=
      exec_fromPeer (b := .deny .releasing) hp trivial (by simp)
    generalize (s.peerTakes h (.deny .releasing)).channelTakes h (.deny .releasing) = u at *
    refine ⟨fun hd => ?_, fun hnone => ?_, fun i k hd hindex hat hchannel => ?_⟩
    · rwa [State.takeDenyReleasing_elsewhere (.inl hd)] at hexec
    · rwa [State.takeDenyReleasing_elsewhere (.inr hnone)] at hexec
    rw [State.takeDenyReleasing_context hd (State.contextOf_eq_some.mpr ⟨hindex, hat⟩)] at hexec
    refine ⟨fun hjoining => ?_, fun hother => ?_⟩
    · rw [if_pos hjoining] at hexec
      exact ⟨_, hexec, State.endExchange_spec u i h.channel k.tag _ (by rw [← hchannel]; rfl)⟩
    · rwa [if_neg hother] at hexec
  · rintro h s s₁ r hp rfl hr
    have hexec : exec (.denyMessage h 2) s = .next ((s.peerTakes h (.deny .notOwner)).takeDenyNotOwner h) :=
      exec_fromPeer_unlearned (b := .deny .notOwner) hp trivial (by simp) rfl (by simp)
    generalize s.peerTakes h (.deny .notOwner) = u at *
    refine ⟨fun hd => ?_, fun hnone => ?_, fun i k hd hindex hat hchannel => ?_⟩
    · rwa [State.takeDenyNotOwner_elsewhere (.inl hd)] at hexec
    · rwa [State.takeDenyNotOwner_elsewhere (.inr hnone)] at hexec
    rw [State.takeDenyNotOwner_context hd (State.contextOf_eq_some.mpr ⟨hindex, hat⟩)] at hexec
    refine ⟨fun hother => ?_, fun hjoining hview howner => ?_⟩
    · rwa [if_neg (by tauto)] at hexec
    rw [if_pos ⟨hjoining, hview, howner⟩] at hexec
    rw [← State.attemptLimit_loaded hr]
    refine ⟨fun n hn hlimit => ?_, fun n hn hlow => ?_⟩
    · rw [← hchannel] at hexec ⊢
      exact ⟨_, hexec, State.rejoin_limit_spec hn hlimit rfl⟩
    · exact ⟨_, hexec, State.rejoin_below_spec hat hn hlow rfl⟩

/-! ### A LEAVE heard -/

theorem State.takeLeave_elsewhere {s : State} {h : Header} (hs : h.destination ≠ s.station.number)
    (h0 : h.destination ≠ 0) : s.takeLeave h = s := by
  unfold State.takeLeave
  rw [if_pos (State.addressedOrAll_eq_false hs h0)]

section
variable {s : State} {h : Header} (hd : h.destination = s.station.number ∨ h.destination = 0)
include hd

/-- A holder loses the subscriber, and confirms it (R54, R77). -/
theorem State.takeLeave_held {i : Nat} {sl : Slot}
    (hv : (s.entry h.channel).view = .heldLocal ∨ (s.entry h.channel).view = .releasing)
    (hs : s.slotOf h.channel = some (i, sl)) :
    s.takeLeave h = (s.putSlot i (SlotLeftBy h.source sl)).addReply .left h.channel h.source := by
  unfold State.takeLeave
  rw [if_neg (ne_false_of_eq_true (State.addressedOrAll_iff.mpr hd))]
  rw [hs, ← Slot.forget_eq]
  rcases hv with hv | hv <;> rw [hv]

/-- Who holds no channel confirms only when told by number (R32, R77). -/
theorem State.takeLeave_stranger
    (hv : (s.entry h.channel).view = .claiming ∨ (s.entry h.channel).view = .announcing ∨
      (s.entry h.channel).view = .free ∨ (s.entry h.channel).view = .heldRemote) :
    s.takeLeave h = if s.addressed h then s.addReply .left h.channel h.source else s := by
  unfold State.takeLeave
  rw [if_neg (ne_false_of_eq_true (State.addressedOrAll_iff.mpr hd))]
  rcases hv with hv | hv | hv | hv <;> rw [hv]

end

/-! ### A LEFT heard -/

/-- A LEFT for another station, or for a channel without a context, ends nothing (R78). -/
theorem State.takeLeft_elsewhere {s : State} {h : Header}
    (hd : h.destination ≠ s.station.number ∨ (s.entry h.channel).contextIndex = none) : s.takeLeft h = s := by
  unfold State.takeLeft
  rcases hd with hd | hd
  · rw [if_neg (mt State.addressed_iff.mp hd)]
  · simp [State.contextOf_eq_none hd]

theorem State.takeLeft_context {s : State} {h : Header} (hd : h.destination = s.station.number) {i : Nat} {k : Context}
    (hk : s.contextOf h.channel = some (i, k)) :
    s.takeLeft h =
      if k.state = .leaving ∧ k.owner = some h.source then
        (s.freeContext i k.channel).completeHeld k.tag { result := .ok }
      else s := by
  unfold State.takeLeft
  rw [if_pos (State.addressed_iff.mpr hd), hk]

/-- Settles O44: a LEAVE by destination and view, a LEFT by the context the entry names. -/
theorem leaveAndLeftMessagesEndSubscriptions : Obligations.LeaveAndLeftMessagesEndSubscriptions := by
  refine ⟨?_, ?_⟩
  · rintro h s s₁ e hp hnumber rfl rfl
    have hexec : exec (.leaveMessage h) s = .next ((s.peerTakes h .leave).takeLeave h) :=
      exec_fromPeer_unlearned (b := .leave) hp trivial (by simp) rfl (by simp)
    rw [← State.peerTakes_number s h .leave] at hnumber
    generalize s.peerTakes h .leave = u at *
    refine ⟨fun hs h0 => ?_, fun i sl hd hview hindex hat => ?_, fun hview => ⟨fun hs => ?_, fun h0 => ?_⟩⟩
    · rwa [State.takeLeave_elsewhere hs h0] at hexec
    · rw [State.takeLeave_held hd hview (State.slotOf_eq_some.mpr ⟨hindex, hat⟩)] at hexec
      exact ⟨_, hexec, State.putSlot_addReply_spec u i _ .left h.channel h.source rfl⟩
    · rw [State.takeLeave_stranger (.inl hs) hview, if_pos (State.addressed_iff.mpr hs)] at hexec
      exact ⟨_, hexec, State.addReply_span .., State.addReply_changesOnly ..⟩
    · rwa [State.takeLeave_stranger (.inr h0) hview, if_neg (State.addressed_of_all hnumber h0)] at hexec
  · rintro h s s₁ hp rfl
    have hexec : exec (.leftMessage h) s = .next ((s.peerTakes h .left).takeLeft h) :=
      exec_fromPeer_unlearned (b := .left) hp trivial (by simp) rfl (by simp)
    generalize s.peerTakes h .left = u at *
    refine ⟨fun hd => ?_, fun i k hd hindex hat hchannel => ?_⟩
    · rwa [State.takeLeft_elsewhere hd] at hexec
    rw [State.takeLeft_context hd (State.contextOf_eq_some.mpr ⟨hindex, hat⟩), hchannel] at hexec
    refine ⟨fun hother => ?_, fun hleaving howner => ?_⟩
    · rwa [if_neg (by tauto)] at hexec
    · rw [if_pos ⟨hleaving, howner⟩] at hexec
      exact ⟨_, hexec, State.endExchange_spec u i h.channel k.tag _ rfl⟩

end Sys2Proof.Machine

/-! ## The Classifier: SET_FILTER (O21), READ_FILTER and READ_PEER (O12), and a DATA cell heard (O47). -/

namespace Sys2Proof.Machine

/-! ### Channels and filters -/

/-- The channel a parameter names is its low ten bits (R171). -/
theorem toChannel_eq (c : Half) : toChannel c = c.setWidth 10 :=
  BitVec.eq_of_toNat_eq (by simp [toChannel])

/-- A channel's two octets are those of the channel widened (R174). -/
theorem channelOctets_eq (c : Channel) : channelOctets c = halfOctets (c.setWidth 16) :=
  congrArg halfOctets (BitVec.eq_of_toNat_eq (by simp))

/-- The filter written is read back; every other filter is as it was. -/
theorem State.filter_setFilter (s : State) (k j : Fin 4) (f : Filter) :
    (s.setFilter k.val f).filter j = if j = k then f else s.filter j := by
  unfold State.filter State.setFilter
  by_cases hf : f = Filter.initial
  · simp only [if_pos hf, FMap.find?_erase, Fin.val_inj]
    split <;> simp [hf]
  · simp only [if_neg hf, FMap.find?_insert, Fin.val_inj]
    split <;> rfl

theorem State.setFilter_spec (s : State) (k : Fin 4) (f : Filter) :
    (s.setFilter k.val f).filter k = f ∧ (∀ j, j ≠ k → (s.setFilter k.val f).filter j = s.filter j) ∧
      ChangesOnly [.classifier] s (s.setFilter k.val f) := by
  refine ⟨by rw [State.filter_setFilter, if_pos rfl], fun j hj => by rw [State.filter_setFilter, if_neg hj],
    fun p hp => ?_, rfl⟩
  cases p <;> simp_all [Part.same]

/-! ### SET_FILTER -/

theorem State.respond_changesOnly (s : State) (r : Result) (data : List Octet) :
    ChangesOnly [.port] s (s.respond r data) :=
  ⟨fun p hp => by cases p <;> simp_all [Part.same], rfl⟩

/-- The checks of SET_FILTER, in order (R97). -/
theorem firstFailing_filterChecks (p : FilterParameters) :
    firstFailing (filterChecks p) =
      if 3 < p.index.toNat then some .badField
      else if 1023 < p.channelLow.toNat ∨ 1023 < p.channelHigh.toNat then some .badChannel
      else if p.channelHigh.toNat < p.channelLow.toNat then some .badField
      else if 62 < p.offset.toNat then some .badField
      else none := by
  simp [firstFailing, filterChecks, isChannel]

/-- A refused SET_FILTER answers the result of the check that failed, and does nothing else (R97). -/
theorem execSetFilter_refused {s : State} {tag : Octet} {p : FilterParameters} {r : Result} (h : PortOpen s)
    (hr : firstFailing (filterChecks p) = some r) :
    ∃ t, exec (.setFilter tag p) s = .next t ∧ OnlyAnswers [r.code] s t := by
  refine ⟨s.respond r [], ?_, State.respond_onlyAnswers ..⟩
  show execSetFilter tag p s = _
  unfold execSetFilter
  rw [State.transact_open h, hr]

/-- An accepted SET_FILTER writes the filter and answers OK (R97). -/
theorem execSetFilter_accepted {s : State} {tag : Octet} {p : FilterParameters} (h : PortOpen s)
    (hr : firstFailing (filterChecks p) = none) :
    exec (.setFilter tag p) s = .next ((s.setFilter p.index.toNat (filterOf p)).respond .ok []) := by
  show execSetFilter tag p s = _
  unfold execSetFilter
  rw [State.transact_open h, hr]

/-- Settles O21: each refusal is one branch of the ordered checks; an accepted request is `State.setFilter`. -/
theorem setFilterIsCheckedAndWritesEveryField : Obligations.SetFilterIsCheckedAndWritesEveryField := by
  intro tag p s hopen
  have hfirst := firstFailing_filterChecks p
  have hrefused (r : Result) (hr : firstFailing (filterChecks p) = some r) :=
    execSetFilter_refused (tag := tag) hopen hr
  refine ⟨fun hindex => hrefused .badField ?_, fun hindex hchannel => hrefused .badChannel ?_,
    fun hindex hlow hhigh => ⟨fun hfield => hrefused .badField ?_, fun k hk hrange hoffset => ?_⟩⟩
  · rw [hfirst, if_pos hindex]
  · rw [hfirst, if_neg (Nat.not_lt.mpr hindex), if_pos hchannel]
  · rw [hfirst, if_neg (Nat.not_lt.mpr hindex), if_neg (by omega)]
    rcases hfield with hrange | hoffset
    · rw [if_pos hrange]
    · rw [if_pos hoffset, ite_self]
  · have hpass : firstFailing (filterChecks p) = none := by
      rw [hfirst, if_neg (Nat.not_lt.mpr hindex), if_neg (by omega), if_neg (Nat.not_lt.mpr hrange),
        if_neg (Nat.not_lt.mpr hoffset)]
    have hexec := execSetFilter_accepted (tag := tag) hopen hpass
    rw [hk] at hexec
    obtain ⟨hself, hothers, honly⟩ := s.setFilter_spec k (filterOf p)
    refine ⟨_, hexec, ?_, hothers, rfl, rfl, ?_⟩
    · rw [← toChannel_eq, ← toChannel_eq]
      exact hself
    · exact (honly.mono (by simp)).trans ((State.respond_changesOnly ..).mono (by simp))

/-! ### READ_FILTER and READ_PEER -/

theorem execReadFilter_open {s : State} (h : PortOpen s) (tag index : Octet) :
    exec (.readFilter tag index) s =
      .next (if 3 < index.toNat then s.respond .badField []
        else s.respond .ok (s.filter (Fin.ofNat 4 index.toNat)).octets) :=
  congrArg _ (State.transact_open h _)

theorem execReadPeer_open {s : State} (h : PortOpen s) (tag station : Octet) :
    exec (.readPeer tag station) s =
      .next (if station.toNat = 0 ∨ 62 < station.toNat then s.respond .badField []
        else s.respond .ok (s.peerData (BitVec.ofNat 6 station.toNat))) :=
  congrArg _ (State.transact_open h _)

/-- The layout of READ_FILTER, field by field (R98, R174). -/
theorem Filter.octets_eq (f : Filter) :
    f.octets = [if f.enabled then 1 else 0] ++ halfOctets (f.channelLow.setWidth 16) ++
      halfOctets (f.channelHigh.setWidth 16) ++ [f.offset] ++ halfOctets f.value ++ halfOctets f.mask := by
  obtain ⟨hbit, -⟩ := presenceBit_eq f.enabled
  rw [Filter.octets, hbit, channelOctets_eq, channelOctets_eq]

/-- The own number is shown without an entry (R128). -/
theorem State.peerData_own (s : State) : s.peerData s.station.number = [0, 2, 0, 0, 0, 0, 0, 0] := if_pos rfl

theorem State.peerData_absent {s : State} {x : Station} (hx : x ≠ s.station.number) (hp : s.peerAt x = none) :
    s.peerData x = [0, 0, 0, 0, 0, 0, 0, 0] := by
  unfold State.peerData
  unfold State.peerAt at hp
  rw [if_neg hx, hp]

/-- A PRESENT peer's layout: the interval alone can be absent (R128, R174). -/
theorem State.peerData_present {s : State} {x : Station} {p : Peer} (hx : x ≠ s.station.number)
    (hp : s.peerAt x = some p) :
    s.peerData x = [if p.interval.isSome then 0x0F else 0x0D, 1, p.epoch, p.interval.getD 0] ++
      halfOctets (BitVec.ofNat 16 p.sinceHeard) ++
      halfOctets (BitVec.ofNat 16 (10 * (p.interval.getD s.record.presenceInterval).toNat *
        s.record.peerMultiple.toNat)) := by
  have hpresence : (presenceBit 0 true ||| presenceBit 1 p.interval.isSome ||| presenceBit 2 true |||
      presenceBit 3 true) = if p.interval.isSome then 0x0F else 0x0D := by
    cases p.interval.isSome <;> decide
  unfold State.peerData
  unfold State.peerAt at hp
  rw [if_neg hx, hp]
  simp only [hpresence]
  rfl

/-- Settles O12: the refusals, and the two layouts. -/
theorem readFilterAndReadPeerReturnTheirLayouts : Obligations.ReadFilterAndReadPeerReturnTheirLayouts := by
  refine ⟨fun tag index s hopen => ?_, fun tag station s hopen => ?_⟩
  · have hexec := execReadFilter_open hopen tag index
    refine ⟨fun hi => ?_, fun k hk => ?_⟩
    · rw [if_pos hi] at hexec
      exact ⟨_, hexec, State.respond_onlyAnswers ..⟩
    · have hindex : Fin.ofNat 4 index.toNat = k := by
        rw [hk]; exact Fin.ext (Nat.mod_eq_of_lt k.isLt)
      rw [if_neg (by omega), hindex, Filter.octets_eq] at hexec
      exact ⟨_, hexec, State.respond_onlyAnswers ..⟩
  · have hexec := execReadPeer_open hopen tag station
    refine ⟨fun hrange => ?_, fun x hx hzero hall => ?_⟩
    · rw [if_pos hrange] at hexec
      exact ⟨_, hexec, State.respond_onlyAnswers ..⟩
    · have hrange : ¬ (station.toNat = 0 ∨ 62 < station.toNat) := by
        rw [hx]; bv_omega
      have hnumber : BitVec.ofNat 6 station.toNat = x := by rw [hx, BitVec.ofNat_toNat, BitVec.setWidth_eq]
      rw [if_neg hrange, hnumber] at hexec
      refine ⟨fun hown => ?_, fun hother habsent => ?_, fun p hother hpresent => ?_⟩
      · rw [hown, State.peerData_own] at hexec
        exact ⟨_, hexec, State.respond_onlyAnswers ..⟩
      · rw [State.peerData_absent hother habsent] at hexec
        exact ⟨_, hexec, State.respond_onlyAnswers ..⟩
      · rw [State.peerData_present hother hpresent] at hexec
        exact ⟨_, hexec, State.respond_onlyAnswers ..⟩

/-! ### A filter that matches a cell -/

/-- Two words agree under a mask exactly when they agree on every bit of the mask. -/
theorem xor_and_eq_zero_iff {w : Nat} (x v m : BitVec w) :
    (x ^^^ v) &&& m = 0#w ↔ ∀ b, b < w → m.getLsbD b = true → x.getLsbD b = v.getLsbD b := by
  simp only [BitVec.eq_of_getLsbD_eq_iff, BitVec.getLsbD_and, BitVec.getLsbD_xor, BitVec.getLsbD_zero]
  refine forall₂_congr fun b _ => ?_
  cases x.getLsbD b <;> cases v.getLsbD b <;> cases m.getLsbD b <;> decide

/-- Bits of a two-octet number, octet by octet. -/
theorem getLsbD_joinOctets (high low : Octet) (b : Nat) :
    (joinOctets high low).getLsbD b = if b < 8 then low.getLsbD b else high.getLsbD (b - 8) :=
  BitVec.getLsbD_append

/-- A filter's masked comparison, octet by octet (R96). -/
theorem joinOctets_masked_iff (high low : Octet) (value mask : Half) :
    (joinOctets high low ^^^ value) &&& mask = 0 ↔
      ∀ b, b < 8 →
        (mask.getLsbD (b + 8) = true → high.getLsbD b = value.getLsbD (b + 8)) ∧
          (mask.getLsbD b = true → low.getLsbD b = value.getLsbD b) := by
  refine (xor_and_eq_zero_iff ..).trans ⟨fun h b hb => ⟨fun hm => ?_, fun hm => ?_⟩, fun h b hb hm => ?_⟩
  · simpa [getLsbD_joinOctets] using h (b + 8) (by omega) hm
  · simpa [getLsbD_joinOctets, hb] using h b (by omega) hm
  · rw [getLsbD_joinOctets]
    by_cases hlow : b < 8
    · rw [if_pos hlow]
      exact (h b hlow).2 hm
    · obtain ⟨c, rfl⟩ : ∃ c, b = c + 8 := ⟨b - 8, by omega⟩
      rw [if_neg hlow, Nat.add_sub_cancel]
      exact (h c (by omega)).1 hm

/-- The model's comparison is the one R96 states. -/
theorem Filter.matchesCell_iff (f : Filter) (c : Channel) (payload : List Octet) :
    f.matchesCell c payload = true ↔ FilterMatches f c payload := by
  unfold FilterMatches
  rw [← joinOctets_masked_iff]
  simp [Filter.matchesCell, comparedOctets, and_assoc]

theorem State.matchingFilter_eq_some {s : State} {c : Channel} {payload : List Octet} {k : Fin 4} :
    s.matchingFilter c payload = some k ↔ LowestMatch s c payload k := by
  rw [State.matchingFilter, show [(0 : Fin 4), 1, 2, 3] = List.finRange 4 from rfl, List.find?_eq_some_iff_getElem]
  simp only [LowestMatch, ← Filter.matchesCell_iff, List.getElem_finRange, List.length_finRange]
  refine and_congr_right fun _ => ⟨?_, fun hbelow => ?_⟩
  · rintro ⟨i, hi, rfl, hbelow⟩ j hj
    simpa using hbelow j.val hj
  · exact ⟨k.val, k.isLt, rfl, fun j hj => by simpa using hbelow ⟨j, by omega⟩ hj⟩

theorem State.matchingFilter_eq_none {s : State} {c : Channel} {payload : List Octet} :
    s.matchingFilter c payload = none ↔ NoMatch s c payload := by
  rw [State.matchingFilter, show [(0 : Fin 4), 1, 2, 3] = List.finRange 4 from rfl]
  simp [NoMatch, ← Filter.matchesCell_iff]

/-! ### The sequence check -/

section
variable {s : State} {h : Header} {i : Nat} {k : Context}

theorem Context.eligible_eq {x : Station} (hstate : k.state = .joined ∨ k.state = .leaving)
    (howner : k.owner = some x) : k.eligible x = k.expected := if_pos ⟨hstate, howner⟩

theorem Context.eligible_eq_none {x : Station}
    (hk : ¬ ((k.state = .joined ∨ k.state = .leaving) ∧ k.owner = some x)) : k.eligible x = none := if_neg hk

/-- An eligible cell behind the expected one is stray (R87). -/
theorem State.classify_behind {expected q : Seq} (hk : s.contextOf h.channel = some (i, k))
    (he : k.eligible h.source = some expected) (hd : 128 ≤ (q - expected).toNat) (payload : List Octet) :
    s.classify h q payload = s.countStray := by
  simp only [State.classify, hk, Option.bind_some, he, Option.map_some, if_pos hd]

/-- An eligible cell at or ahead of the expected one moves the expected sequence and is routed with the number of cells
missed (R86). -/
theorem State.classify_ahead {expected q : Seq} (hk : s.contextOf h.channel = some (i, k))
    (he : k.eligible h.source = some expected) (hd : (q - expected).toNat < 128) (payload : List Octet) :
    s.classify h q payload =
      (s.putContext i { k with expected := some (q + 1) }).routeCell h q payload (some (q - expected).toNat) := by
  simp only [State.classify, hk, Option.bind_some, he, Option.map_some, if_neg (Nat.not_le.mpr hd)]

/-- A cell that is not eligible is routed without a number (R86). -/
theorem State.classify_ineligible (hk : ∀ i k, s.contextOf h.channel = some (i, k) → k.eligible h.source = none)
    (q : Seq) (payload : List Octet) : s.classify h q payload = s.routeCell h q payload none := by
  unfold State.classify
  cases hof : s.contextOf h.channel with
  | none => rfl
  | some row => simp only [Option.bind_some, hk row.1 row.2 hof, Option.map_none]

end

/-! ### The steps behind it -/

section
variable {s : State} {h : Header} {q : Seq} {payload : List Octet} {missing : Option Nat}

theorem State.routeCell_discarded (hd : (s.entry h.channel).discard = true) :
    s.routeCell h q payload missing = s := if_pos hd

section
variable (hd : (s.entry h.channel).discard = false)
include hd

theorem State.routeCell_trapped (ht : (s.entry h.channel).trap = true) :
    s.routeCell h q payload missing = s.offer .qm ⟨h.channel, h.source, q, missing, .channelTrap, payload⟩ := by
  simp only [State.routeCell, hd, ht, Bool.false_eq_true, ↓reduceIte]

variable (ht : (s.entry h.channel).trap = false)
include ht

theorem State.routeCell_filtered {f : Fin 4} (hf : s.matchingFilter h.channel payload = some f) :
    s.routeCell h q payload missing = s.offer .qm ⟨h.channel, h.source, q, missing, .filter f, payload⟩ := by
  simp only [State.routeCell, hd, ht, hf, Bool.false_eq_true, ↓reduceIte]

variable (hf : s.matchingFilter h.channel payload = none)
include hf

theorem State.routeCell_delivered (hm : missing.isSome = true) :
    s.routeCell h q payload missing =
      s.offer (queueOfGroup (s.entry h.channel).group) ⟨h.channel, h.source, q, missing, .delivered, payload⟩ := by
  simp only [State.routeCell, hd, ht, hf, hm, Bool.false_eq_true, ↓reduceIte]

/-- A cell that is not eligible is stray while its channel drains, and is ignored otherwise (R92). -/
theorem State.routeCell_ineligible :
    s.routeCell h q payload none =
      if (s.contextOf h.channel).any (fun row => row.2.state = .draining) then s.countStray else s := by
  simp only [State.routeCell, hd, ht, hf, Option.isSome_none, Bool.false_eq_true, ↓reduceIte]

end
end

/-- A stray cell is counted, and nothing else changes (R87, R92). -/
theorem State.countStray_spec (s : State) :
    s.countStray.classifier = { s.classifier with stray := Counted s.classifier.stray } ∧
      ChangesOnly [.classifier] s s.countStray :=
  ⟨rfl, fun p hp => by cases p <;> simp_all [Part.same], rfl⟩

/-- Settles O47: the sequence check decides the state and the number the steps of the classification see; then each step
is one branch of `State.routeCell`. -/
theorem dataMessageIsClassifiedInOrder : Obligations.DataMessageIsClassifiedInOrder := by
  rintro h q payload s s₁ hp hmin hmax rfl
  have hexec : exec (.dataMessage h q (BitVec.ofNat 8 payload.length) payload) s =
      .next (((s.peerTakes h (.data q payload)).channelTakes h (.data q payload)).classify h q payload) :=
    exec_fromPeer (b := .data q payload) hp ⟨hmin, hmax⟩ (by simp)
  generalize (s.peerTakes h (.data q payload)).channelTakes h (.data q payload) = u at *
  refine ⟨fun i k expected hindex hat hstate howner he hbehind => ?_, fun s₂ missing hcheck => ?_⟩
  · rw [State.classify_behind (State.contextOf_eq_some.mpr ⟨hindex, hat⟩)
      ((Context.eligible_eq hstate howner).trans he) hbehind] at hexec
    exact ⟨_, hexec, u.countStray_spec⟩
  have hclassify : u.classify h q payload = s₂.routeCell h q payload missing := by
    rcases hcheck with ⟨i, k, expected, hindex, hat, hstate, howner, he, hahead, rfl, rfl⟩ | ⟨hk, rfl, rfl⟩
    · exact State.classify_ahead (State.contextOf_eq_some.mpr ⟨hindex, hat⟩)
        ((Context.eligible_eq hstate howner).trans he) hahead payload
    · refine State.classify_ineligible (fun i k hof => ?_) q payload
      obtain ⟨hindex, hat⟩ := State.contextOf_eq_some.mp hof
      exact Context.eligible_eq_none (hk i k hindex hat)
  refine ⟨_, hexec.trans (congrArg _ hclassify), fun hd => State.routeCell_discarded hd,
    fun hd => ⟨fun ht => ?_, fun ht => ⟨fun f hf => ?_, fun hnone => ?_⟩⟩⟩
  · rw [State.routeCell_trapped hd ht]
    exact State.offer_spec ..
  · rw [State.routeCell_filtered hd ht (State.matchingFilter_eq_some.mpr hf)]
    exact State.offer_spec ..
  have hf := State.matchingFilter_eq_none.mpr hnone
  refine ⟨fun hm => ?_, ?_⟩
  · rw [State.routeCell_delivered hd ht hf (Option.isSome_iff_ne_none.mpr hm)]
    exact State.offer_spec ..
  · rintro rfl
    rw [State.routeCell_ineligible hd ht hf]
    refine ⟨?_, fun hquiet => if_neg ?_⟩
    · rintro ⟨i, k, hindex, hat, hdraining⟩
      rw [State.contextOf_eq_some.mpr ⟨hindex, hat⟩, if_pos (by simp [hdraining])]
      exact s₂.countStray_spec
    · rw [Option.any_eq_true]
      rintro ⟨⟨i, k⟩, hof, hdraining⟩
      obtain ⟨hindex, hat⟩ := State.contextOf_eq_some.mp hof
      exact hquiet i k hindex hat (of_decide_eq_true hdraining)

end Sys2Proof.Machine

/-! ## The cell store: an accepted SEND (O17), and the requests TAKE (O22) and FLUSH (O23). -/

namespace Sys2Proof.Machine

/-! ### SEND accepted -/

/-- A SEND that passes its checks sends the whole payload with the sequence its entry leads to (R112). -/
theorem execSend_accepted {s : State} {channel : Half} {length : Octet} {payload : List Octet} (h : PortOpen s)
    (hwhole : payload.length = length.toNat) (hr : firstFailing (s.sendChecks channel length) = none) (tag : Octet) :
    exec (.send tag channel length payload) s = .next (s.acceptSend (toChannel channel) payload) := by
  show execSend tag channel length payload s = _
  unfold execSend
  rw [State.transact_open h, if_neg (by omega), hr, ← hwhole, List.take_length]

/-- What an accepted SEND changes, as a reader sees it (R112). -/
theorem State.acceptSend_spec {s : State} {c : Channel} {i : Nat} {sl : Slot} {q : Seq}
    (hq : s.sendSequence c = some (i, sl, q)) (payload : List Octet) :
    (s.acceptSend c payload).slotAt i = some { sl with transmitSequence := some (q + 1) } ∧
      (s.acceptSend c payload).store =
        { s.store with free := s.store.free - 1, fifo := s.store.fifo ++ [.data c q payload 0 false false] } ∧
      (s.acceptSend c payload).port = { s.port with response := [0, q] } ∧
      OtherSlots i s (s.acceptSend c payload) ∧ ChangesOnly [.slots, .store, .port] s (s.acceptSend c payload) := by
  have honly : ChangesOnly [.slots, .store, .port] s (s.acceptSend c payload) :=
    ⟨fun p hp => by cases p <;> simp_all [Part.same], by simp⟩
  obtain ⟨hslot, hslots, -⟩ := s.putSlot_spec i { sl with transmitSequence := some (q + 1) }
  unfold State.acceptSend at honly ⊢
  rw [hq] at honly ⊢
  exact ⟨hslot, rfl, rfl, hslots, honly⟩

/-- Settles O17: every check passes, and the entry leads to the slot whose sequence is taken. -/
theorem sendAppendsADataEntryWithTheTransmitSequence :
    Obligations.SendAppendsADataEntryWithTheTransmitSequence := by
  intro tag channel length payload s r i sl q hopen hwhole hr hc hview hindex hat hq hlow hhigh hroom hfree
  have hsequence := State.sendSequence_eq_some hindex hat hq
  have hpass : firstFailing (s.sendChecks channel length) = none := by
    rw [firstFailing_sendChecks, if_neg (Nat.not_lt.mpr hc), if_neg (by simp [hview]),
      if_neg (by simp [hview, hsequence]), if_neg (by omega), State.record_loaded hr, if_neg (Nat.not_le.mpr hroom),
      if_neg hfree.ne']
  exact ⟨_, execSend_accepted hopen hwhole hpass tag, State.acceptSend_spec hsequence payload⟩

/-! ### Queues by number, and what is left of them -/

/-- A queue number above 4 names no queue (R104). -/
theorem queueOfNumber_eq_none {n : Octet} (h : 4 < n.toNat) : queueOfNumber n = none := by
  unfold queueOfNumber
  split
  case h_6 => rfl
  all_goals omega

/-- A queue's number names it (R104). -/
theorem queueOfNumber_number {n : Octet} {q : QueueName} (h : n.toNat = q.number) : queueOfNumber n = some q := by
  unfold queueOfNumber
  rw [h]
  cases q <;> rfl

/-- A queue written back as it is changes nothing. -/
theorem State.setQueue_queue (s : State) (q : QueueName) : s.setQueue q (s.store.queue q) = s := by
  cases q <;> rfl

theorem ReceiveQueue.left_eq (r : ReceiveQueue) (rest : List Descriptor) :
    r.left rest =
      { r with cells := rest, overflowNotified := if rest = [] then false else r.overflowNotified } := by
  cases rest <;> rfl

/-- A queue after FLUSH: emptied, its flag cleared by the removal of a last descriptor, if there was one (R102, R106). -/
def ReceiveQueue.flushed (r : ReceiveQueue) : ReceiveQueue :=
  { r with cells := [], overflowNotified := if r.cells = [] then r.overflowNotified else false }

theorem ReceiveQueue.flushed_of_nil {r : ReceiveQueue} (h : r.cells = []) : r.flushed = r := by
  cases r
  simp_all [ReceiveQueue.flushed]

theorem ReceiveQueue.flushed_of_cons {r : ReceiveQueue} (h : r.cells ≠ []) : r.flushed = r.left [] := by
  simp [ReceiveQueue.flushed, ReceiveQueue.left, h]

/-! ### Contexts that come to owe DRAINED -/

/-- DRAINED is owed to the owner the context has, and not twice (R58, R59). -/
theorem Context.oweDrained_eq_ite (k : Context) :
    k.oweDrained =
      if ∃ o, k.owed = some o ∧ o.kind = .drained then k
      else { k with owed := some ⟨.drained, k.owner.getD 0, 0, false⟩ } := by
  unfold Context.oweDrained
  cases k.owed <;> simp [ContextOwed.fresh]

theorem Context.oweDrained_state (k : Context) : k.oweDrained.state = k.state := by
  unfold Context.oweDrained; split <;> rfl

theorem Context.oweDrained_oweDrained (k : Context) : k.oweDrained.oweDrained = k.oweDrained := by
  by_cases h : ∃ o, k.owed = some o ∧ o.kind = .drained
  · rw [k.oweDrained_eq_ite, if_pos h, k.oweDrained_eq_ite, if_pos h]
  · rw [k.oweDrained_eq_ite, if_neg h, Context.oweDrained_eq_ite, if_pos ⟨_, rfl, rfl⟩]

/-- The removal of descriptors brings the count of a DRAINING channel of the context i to 0 (R8, R59). -/
def DrainsContext (removed : List Descriptor) (s : State) (i : Nat) : Prop :=
  ∃ c, 0 < removed.countP (fun d => d.channel = c) ∧ (s.entry c).contextIndex = some i ∧
    (s.entry c).queued ≤ removed.countP (fun d => d.channel = c) ∧ (s.entry c).subscription = .draining

theorem not_drainsContext_nil (s : State) (i : Nat) : ¬ DrainsContext [] s i := by
  rintro ⟨c, hc, -⟩
  exact absurd hc (by simp)

/-- The count of a channel reaches 0 with the first descriptor removed, or with those behind it. -/
theorem drainsContext_cons (d : Descriptor) (rest : List Descriptor) (s : State) (i : Nat) :
    DrainsContext (d :: rest) s i ↔
      ((s.entry d.channel).contextIndex = some i ∧ (s.entry d.channel).queued - 1 = 0 ∧
        (s.entry d.channel).subscription = .draining) ∨ DrainsContext rest (s.dequeued d) i := by
  obtain ⟨-, hentry, hothers⟩ := s.dequeued_spec d
  unfold DrainsContext
  simp only [List.countP_cons, decide_eq_true_eq]
  constructor
  · rintro ⟨c, hcount, hindex, hqueued, hdraining⟩
    by_cases hc : c = d.channel
    · subst hc
      rw [if_pos rfl] at hqueued
      by_cases hzero : (s.entry d.channel).queued - 1 = 0
      · exact .inl ⟨hindex, hzero, hdraining⟩
      · refine .inr ⟨d.channel, by omega, ?_⟩
        rw [hentry]
        exact ⟨hindex, Nat.sub_le_of_le_add hqueued, hdraining⟩
    · rw [if_neg (Ne.symm hc)] at hcount hqueued
      refine .inr ⟨c, hcount, ?_⟩
      rw [hothers c hc]
      exact ⟨hindex, hqueued, hdraining⟩
  · rintro (⟨hindex, hzero, hdraining⟩ | ⟨c, hcount, hcase⟩)
    · refine ⟨d.channel, ?_, hindex, ?_, hdraining⟩ <;> rw [if_pos rfl] <;> omega
    · by_cases hc : c = d.channel
      · subst hc
        rw [hentry] at hcase
        obtain ⟨hindex, hqueued, hdraining⟩ := hcase
        refine ⟨d.channel, ?_, hindex, ?_, hdraining⟩
        · rw [if_pos rfl]; omega
        · rw [if_pos rfl]; exact Nat.le_add_of_sub_le hqueued
      · rw [hothers c hc] at hcase
        refine ⟨c, ?_⟩
        rw [if_neg (Ne.symm hc)]
        exact ⟨hcount, hcase⟩

/-- Descriptors that leave make DRAINED owed where a DRAINING channel's count reaches 0, and change no other context
(R59, R106). -/
theorem State.dequeueds_contextAt (removed : List Descriptor) (s : State) (i : Nat) :
    (DrainsContext removed s i →
        (removed.foldl State.dequeued s).contextAt i = (s.contextAt i).map Context.oweDrained) ∧
      (¬ DrainsContext removed s i → (removed.foldl State.dequeued s).contextAt i = s.contextAt i) := by
  induction removed generalizing s with
  | nil => exact ⟨fun h => absurd h (not_drainsContext_nil s i), fun _ => rfl⟩
  | cons d rest ih =>
    obtain ⟨ihdrains, ihkeeps⟩ := ih (s.dequeued d)
    have hfirst := s.dequeued_contextAt d i
    rw [drainsContext_cons, List.foldl_cons]
    by_cases hrest : DrainsContext rest (s.dequeued d) i
    · refine ⟨fun _ => ?_, fun h => absurd (.inr hrest) h⟩
      rw [ihdrains hrest, hfirst]
      split
      · rw [Option.map_map]
        exact congrArg (Option.map · (s.contextAt i)) (funext Context.oweDrained_oweDrained)
      · rfl
    · rw [ihkeeps hrest, hfirst]
      exact ⟨fun h => if_pos (h.resolve_right hrest), fun h => if_neg fun hd => h (.inl hd)⟩

/-! ### Descriptors that leave a queue -/

/-- The whole entry of a channel after descriptors have left: the count alone is lower (R104, R106). -/
theorem State.dequeueds_entry (removed : List Descriptor) (s : State) (c : Channel) :
    (removed.foldl State.dequeued s).entry c =
      { s.entry c with queued := (s.entry c).queued - removed.countP (fun d => d.channel = c) } := by
  induction removed generalizing s with
  | nil => rfl
  | cons d rest ih =>
    obtain ⟨-, hentry, hothers⟩ := s.dequeued_spec d
    rw [List.foldl_cons, ih, List.countP_cons]
    by_cases hc : c = d.channel
    · subst hc
      simp only [hentry, decide_true, ↓reduceIte, Nat.sub_sub, Nat.add_comm 1]
    · simp [hothers c hc, Ne.symm hc]

/-- What the removal of descriptors from a queue changes, but for the contexts (R104, R106). -/
theorem State.removed_spec (s : State) (q : QueueName) (r : ReceiveQueue) (removed : List Descriptor) :
    (removed.foldl State.dequeued (s.setQueue q r)).store.queue q = r ∧
      (∀ q', q' ≠ q → (removed.foldl State.dequeued (s.setQueue q r)).store.queue q' = s.store.queue q') ∧
      (removed.foldl State.dequeued (s.setQueue q r)).store.free = s.store.free + removed.length ∧
      (removed.foldl State.dequeued (s.setQueue q r)).store.fifo = s.store.fifo ∧
      (removed.foldl State.dequeued (s.setQueue q r)).store.sendFailures = s.store.sendFailures ∧
      ChangesOnly [.store, .channels, .contexts] s (removed.foldl State.dequeued (s.setQueue q r)) := by
  obtain ⟨hstore, -, -⟩ := State.dequeueds_spec removed (s.setQueue q r)
  refine ⟨?_, fun q' hq' => ?_, ?_, ?_, ?_, fun p hp => ?_, by simp⟩
  · rw [hstore, CellStore.queue_free, State.setQueue_store, CellStore.queue_setQueue_self]
  · rw [hstore, CellStore.queue_free, State.setQueue_store, CellStore.queue_setQueue_other _ _ hq']
  · simp [hstore]
  · simp [hstore]
  · simp [hstore]
  · cases p <;> simp_all [Part.same]

/-- An answer given after operations that left the port alone. -/
theorem State.respond_port_of_same {s t : State} (h : t.port = s.port) (r : Result) (data : List Octet) :
    (t.respond r data).port = { s.port with response := r.code :: data } := by
  rw [State.respond_port, h]

/-! ### TAKE -/

/-- TAKE refuses a queue number that names no queue (R104). -/
theorem execTake_badField {s : State} {queue : Octet} (h : PortOpen s) (hq : 4 < queue.toNat) (tag : Octet) :
    exec (.take tag queue) s = .next (s.respond .badField []) := by
  show execTake tag queue s = _
  unfold execTake
  rw [State.transact_open h, queueOfNumber_eq_none hq]

/-- TAKE answers EMPTY for an empty queue (R104). -/
theorem execTake_empty {s : State} {queue : Octet} {q : QueueName} (h : PortOpen s) (hq : queue.toNat = q.number)
    (hcells : (s.store.queue q).cells = []) (tag : Octet) :
    exec (.take tag queue) s = .next (s.respond .empty []) := by
  show execTake tag queue s = _
  unfold execTake
  rw [State.transact_open h, queueOfNumber_number hq]
  simp only [hcells]

/-- TAKE removes the head of a queue and answers its layout (R103, R104). -/
theorem execTake_head {s : State} {queue : Octet} {q : QueueName} {d : Descriptor} {rest : List Descriptor}
    (h : PortOpen s) (hq : queue.toNat = q.number) (hcells : (s.store.queue q).cells = d :: rest) (tag : Octet) :
    exec (.take tag queue) s =
      .next (([d].foldl State.dequeued (s.setQueue q ((s.store.queue q).left rest))).respond .ok
        (d.octets rest.length)) := by
  show execTake tag queue s = _
  unfold execTake
  rw [State.transact_open h, queueOfNumber_number hq]
  simp only [hcells]
  rfl

/-- Settles O22: TAKE is the removal of one descriptor, and its answer is `Descriptor.octets` written out (R103). -/
theorem takeRemovesTheHeadAndReturnsItsLayout : Obligations.TakeRemovesTheHeadAndReturnsItsLayout := by
  intro tag queue s hopen
  refine ⟨fun hbad => ⟨_, execTake_badField hopen hbad tag, State.respond_onlyAnswers ..⟩,
    fun q hq => ⟨fun hcells => ⟨_, execTake_empty hopen hq hcells tag, State.respond_onlyAnswers ..⟩,
      fun d rest hcells => ?_⟩⟩
  have hexec := execTake_head hopen hq hcells tag
  obtain ⟨hqueue, hqueues, hfree, hfifo, hfailures, honly⟩ :=
    s.removed_spec q ((s.store.queue q).left rest) [d]
  obtain ⟨-, hentry, hentries⟩ := (s.setQueue q ((s.store.queue q).left rest)).dequeued_spec d
  have hcontext := (s.setQueue q ((s.store.queue q).left rest)).dequeued_contextAt d
  refine ⟨_, hexec, ?_, hqueues, hfree, hfifo, hfailures, hentry, hentries, fun i hi => ?_, fun i hi => ?_, ?_, ?_⟩
  · exact hqueue.trans (ReceiveQueue.left_eq ..)
  · exact (hcontext i).trans (if_neg fun h => hi h.1)
  · refine (hcontext i).trans ?_
    by_cases hlast : (s.entry d.channel).queued - 1 = 0 ∧ (s.entry d.channel).subscription = .draining
    · rw [if_pos ⟨hi, hlast⟩]
      refine congrArg (Option.map · (s.contextAt i)) (funext fun k => ?_)
      simp only [k.oweDrained_eq_ite, hlast, true_and, ite_not]
    · rw [if_neg fun h => hlast h.2]
      simp only [← and_assoc, hlast, false_and, ↓reduceIte, Option.map_id']
      rfl
  · exact State.respond_port_of_same (honly.1 .port (by simp)) ..
  · exact (honly.mono (by simp)).trans ((State.respond_changesOnly ..).mono (by simp))

/-! ### FLUSH -/

/-- FLUSH refuses a queue number that names no queue (R106). -/
theorem execFlush_badField {s : State} {queue : Octet} (h : PortOpen s) (hq : 4 < queue.toNat) (tag : Octet) :
    exec (.flush tag queue) s = .next (s.respond .badField []) := by
  show execFlush tag queue s = _
  unfold execFlush
  rw [State.transact_open h, queueOfNumber_eq_none hq]

/-- FLUSH removes whatever the queue holds; on an empty one that is no removal (R106). -/
theorem execFlush_open {s : State} {queue : Octet} {q : QueueName} (h : PortOpen s) (hq : queue.toNat = q.number)
    (tag : Octet) :
    exec (.flush tag queue) s =
      .next (((s.store.queue q).cells.foldl State.dequeued (s.setQueue q (s.store.queue q).flushed)).respond .ok
        (numberOctets (s.store.queue q).cells.length)) := by
  show execFlush tag queue s = _
  unfold execFlush
  rw [State.transact_open h, queueOfNumber_number hq]
  cases hcells : (s.store.queue q).cells with
  | nil => simp only [hcells, ReceiveQueue.flushed_of_nil hcells, State.setQueue_queue, List.foldl_nil, List.length_nil]
  | cons d rest =>
    simp only [hcells, ReceiveQueue.flushed_of_cons (hcells ▸ List.cons_ne_nil d rest), List.length_cons]

/-- Settles O23: FLUSH is the removal of all the queue's descriptors. The last part holds without the law it assumes: which
context owes DRAINED is read from the entry's index alone. -/
theorem flushEmptiesOneQueueAndAnswersHowMany : Obligations.FlushEmptiesOneQueueAndAnswersHowMany := by
  refine ⟨fun tag queue s hopen => ⟨fun hbad => ?_, fun q hq => ?_⟩,
    fun tag queue s q c i k hopen hq hcells hcount hdraining hindex hat _ => ?_⟩
  · exact ⟨_, execFlush_badField hopen hbad tag, State.respond_onlyAnswers ..⟩
  · have hexec := execFlush_open hopen hq tag
    obtain ⟨hqueue, hqueues, hfree, hfifo, hfailures, honly⟩ :=
      s.removed_spec q (s.store.queue q).flushed (s.store.queue q).cells
    have hentry := State.dequeueds_entry (s.store.queue q).cells (s.setQueue q (s.store.queue q).flushed)
    refine ⟨_, hexec, hqueue, hqueues, hfree, hfifo, hfailures, hentry, fun i hquiet => ?_, ?_, ?_⟩
    · obtain ⟨-, hkeeps⟩ :=
        State.dequeueds_contextAt (s.store.queue q).cells (s.setQueue q (s.store.queue q).flushed) i
      refine hkeeps ?_
      rintro ⟨c, hcells, hindex, hcount, hdraining⟩
      exact hquiet c hcells hindex hcount hdraining
    · exact State.respond_port_of_same (honly.1 .port (by simp)) ..
    · exact (honly.mono (by simp)).trans ((State.respond_changesOnly ..).mono (by simp))
  · have hexec := execFlush_open hopen hq tag
    have hentry := State.dequeueds_entry (s.store.queue q).cells (s.setQueue q (s.store.queue q).flushed) c
    obtain ⟨hdrains, -⟩ :=
      State.dequeueds_contextAt (s.store.queue q).cells (s.setQueue q (s.store.queue q).flushed) i
    have howes := hdrains ⟨c, hcells, hindex, hcount.le, hdraining⟩
    refine ⟨_, hexec, ?_, k.oweDrained, ?_, k.oweDrained_state, fun ho => ?_, fun ho => ?_⟩
    · exact (congrArg ChannelEntry.queued hentry).trans (Nat.sub_eq_zero_of_le hcount.le)
    · exact howes.trans (congrArg (Option.map Context.oweDrained) hat)
    · rw [k.oweDrained_eq_ite, if_pos ho]
    · rw [k.oweDrained_eq_ite, if_neg ho]

end Sys2Proof.Machine

/-! ## Peers and presence: the Peer Table and the messages and timers that move it (O38), the presence timer and the
listen timer (O51). -/

namespace Sys2Proof.Machine

/-! ### What the Peer Table's operations do -/

/-- The arrival writes the source's entry and PEER_ARRIVED (R119). -/
theorem State.arrive_spec (s : State) (h : Header) (b : Body) :
    (s.arrive h b).peerAt h.source = some (ArrivedEntry s h (announcedInterval b)) ∧
      OtherPeers h.source s (s.arrive h b) ∧
      (s.arrive h b).events = (Notified (.peerArrived h.source h.epoch) s).events ∧
      ChangesOnly [.peers, .events] s (s.arrive h b) := by
  have hpeers : (s.arrive h b).peers =
      FMap.insert s.peers h.source.toNat (ArrivedEntry s h (announcedInterval b)) := by
    simp [State.arrive, ArrivedEntry, State.peerTimeout]
  refine ⟨?_, fun y hy => ?_, ?_, fun part hpart => ?_, by simp⟩
  · rw [State.peerAt_of_insert hpeers, if_pos rfl]
  · rw [State.peerAt_of_insert hpeers, if_neg hy]
  · unfold State.arrive
    rw [State.notify_eq]
    rfl
  · cases part <;> simp_all [Part.same]

/-- A peer that stays keeps its epoch, and its interval unless the message announces one (R120). -/
theorem State.continuePresence_spec (s : State) (b : Body) {h : Header} {p : Peer} (hepoch : p.epoch = h.epoch) :
    (s.continuePresence h b p).peerAt h.source = some (ArrivedEntry s h ((announcedInterval b).or p.interval)) ∧
      OtherPeers h.source s (s.continuePresence h b p) ∧ ChangesOnly [.peers] s (s.continuePresence h b p) := by
  have hpeers : (s.continuePresence h b p).peers =
      FMap.insert s.peers h.source.toNat (ArrivedEntry s h ((announcedInterval b).or p.interval)) := by
    simp [State.continuePresence, ArrivedEntry, State.peerTimeout, hepoch]
  refine ⟨?_, fun y hy => ?_, fun part hpart => ?_, by simp⟩
  · rw [State.peerAt_of_insert hpeers, if_pos rfl]
  · rw [State.peerAt_of_insert hpeers, if_neg hy]
  · cases part <;> simp_all [Part.same]

/-- The entry an arrival writes is read from the startup record, which a departure leaves as it is (R151). -/
theorem ArrivedEntry_depart (s : State) (y : Station) (reason : LostReason) (epoch : Octet) (h : Header)
    (interval : Option Octet) : ArrivedEntry (s.depart y reason epoch) h interval = ArrivedEntry s h interval := by
  unfold ArrivedEntry State.record
  rw [startup_of_settled (State.depart_settled s y reason epoch)]

/-! ### The four moves of the Peer Table -/

section
variable {s : State} {h : Header} {b : Body} {p : Peer}

/-- A departing BEACON of an ABSENT source is nothing to the Peer Table (R122). -/
theorem State.peerTakes_departing_absent (hat : s.peerAt h.source = none) (hd : departingBeacon h b = true) :
    s.peerTakes h b = s := by
  unfold State.peerTakes
  rw [show FMap.find? s.peers h.source.toNat = none from hat]
  exact if_pos hd

/-- A departing BEACON of a PRESENT source is its departure (R122). -/
theorem State.peerTakes_departing_present (hat : s.peerAt h.source = some p) (hd : departingBeacon h b = true) :
    s.peerTakes h b = s.depart h.source .departed p.epoch := by
  unfold State.peerTakes
  rw [show FMap.find? s.peers h.source.toNat = some p from hat]
  exact if_pos hd

/-- Any other message of an ABSENT source is its arrival (R119). -/
theorem State.peerTakes_absent (hat : s.peerAt h.source = none) (hd : departingBeacon h b = false) :
    s.peerTakes h b = s.arrive h b := by
  unfold State.peerTakes
  rw [show FMap.find? s.peers h.source.toNat = none from hat]
  exact if_neg (Bool.eq_false_iff.mp hd)

/-- Any other message of a PRESENT source is continued presence at the same epoch (R120), and at another one a departure
and an arrival (R121). -/
theorem State.peerTakes_present (hat : s.peerAt h.source = some p) (hd : departingBeacon h b = false) :
    s.peerTakes h b =
      if p.epoch = h.epoch then s.continuePresence h b p else (s.depart h.source .restarted p.epoch).arrive h b := by
  unfold State.peerTakes
  rw [show FMap.find? s.peers h.source.toNat = some p from hat]
  exact if_neg (Bool.eq_false_iff.mp hd)

/-- An ABSENT source arrives (R119). -/
theorem State.peerTakes_absent_spec (hat : s.peerAt h.source = none) (hd : departingBeacon h b = false) :
    (s.peerTakes h b).peerAt h.source = some (ArrivedEntry s h (announcedInterval b)) ∧
      OtherPeers h.source s (s.peerTakes h b) ∧
      (s.peerTakes h b).events = (Notified (.peerArrived h.source h.epoch) s).events ∧
      ChangesOnly [.peers, .events] s (s.peerTakes h b) := by
  rw [State.peerTakes_absent hat hd]
  exact s.arrive_spec h b

/-- A source with the epoch of its entry stays PRESENT (R120). -/
theorem State.peerTakes_sameEpoch_spec (hat : s.peerAt h.source = some p) (hd : departingBeacon h b = false)
    (hepoch : p.epoch = h.epoch) :
    (s.peerTakes h b).peerAt h.source = some (ArrivedEntry s h ((announcedInterval b).or p.interval)) ∧
      OtherPeers h.source s (s.peerTakes h b) ∧ ChangesOnly [.peers] s (s.peerTakes h b) := by
  rw [State.peerTakes_present hat hd, if_pos hepoch]
  exact s.continuePresence_spec b hepoch

/-- A source with another epoch has restarted: it departs, and arrives anew (R121). -/
theorem State.peerTakes_newEpoch_spec (ht : TableLaw s) (hat : s.peerAt h.source = some p)
    (hd : departingBeacon h b = false) (hepoch : p.epoch ≠ h.epoch) :
    ∃ u, Departed h.source .restarted p.epoch s u ∧
      (s.peerTakes h b).peerAt h.source = some (ArrivedEntry s h (announcedInterval b)) ∧
      OtherPeers h.source u (s.peerTakes h b) ∧
      (s.peerTakes h b).events = (Notified (.peerArrived h.source h.epoch) u).events ∧
      ChangesOnly [.peers, .events] u (s.peerTakes h b) := by
  have harrived := (s.depart h.source .restarted p.epoch).arrive_spec h b
  rw [ArrivedEntry_depart] at harrived
  rw [State.peerTakes_present hat hd, if_neg hepoch]
  exact ⟨_, s.depart_spec h.source .restarted p.epoch ht, harrived⟩

end

/-! ### Messages and the peer timer -/

/-- Only a BEACON departs or announces an interval (R119, R122). -/
theorem departingBeacon_announcedInterval_of_ne {b : Body} (hb : ∀ interval, b ≠ .beacon interval) (h : Header) :
    departingBeacon h b = false ∧ announcedInterval b = none := by
  cases b with
  | beacon interval => exact absurd rfl (hb interval)
  | claim | hold | announce | join | admission | deny | leave | left | drain | drained | release | data =>
    exact ⟨rfl, rfl⟩

/-- A BEACON is the Peer Table's alone (R135). -/
theorem exec_beaconMessage {s : State} {h : Header} (hp : FromPeer s h) (interval : Octet) :
    exec (.beaconMessage h interval) s = .next (s.peerTakes h (.beacon interval)) :=
  (exec_messageCommand h (.beacon interval) s trivial).trans (congrArg _ (State.receive_fromPeer hp _))

/-- An interval octet of 0 leaves the announced interval as it was (R120). -/
theorem announcedInterval_beacon_or (interval : Octet) (known : Option Octet) :
    (announcedInterval (.beacon interval)).or known = if interval = 0 then known else some interval := by
  show (if interval = 0 then none else some interval).or known = _
  by_cases h0 : interval = 0
  · rw [if_pos h0, if_pos h0, Option.none_or]
  · rw [if_neg h0, if_neg h0, Option.some_or]

theorem execPeerTimerExpiry_absent {s : State} {x : Station} (hat : s.peerAt x = none) :
    exec (.peerTimerExpiry x) s = .next s := by
  show execPeerTimerExpiry x s = _
  unfold execPeerTimerExpiry
  rw [show FMap.find? s.peers x.toNat = none from hat]

theorem execPeerTimerExpiry_present {s : State} {x : Station} {p : Peer} (hat : s.peerAt x = some p) :
    exec (.peerTimerExpiry x) s = .next (if p.timer = 0 then s.depart x .timeout p.epoch else s) := by
  show execPeerTimerExpiry x s = _
  unfold execPeerTimerExpiry
  rw [show FMap.find? s.peers x.toNat = some p from hat]
  simp only [expired_iff, Option.some.injEq]

/-- Settles O38: a message by the source's entry, its epoch and the departing flag; the timer by whether it has run
out. -/
theorem messagesAndThePeerTimerMoveThePeerTable : Obligations.MessagesAndThePeerTimerMoveThePeerTable := by
  refine ⟨?_, ?_, fun x s ht => ⟨execPeerTimerExpiry_absent, fun p hat => ?_⟩⟩
  · rintro h b s s₁ - hkind ht rfl
    obtain ⟨hd, hsilent⟩ := departingBeacon_announcedInterval_of_ne hkind h
    refine ⟨fun hat => ?_, fun p hat => ⟨fun hepoch => ?_, fun hepoch => ?_⟩⟩
    · exact hsilent ▸ State.peerTakes_absent_spec hat hd
    · have hstays := State.peerTakes_sameEpoch_spec hat hd hepoch
      rwa [hsilent, Option.none_or] at hstays
    · exact hsilent ▸ State.peerTakes_newEpoch_spec ht hat hd hepoch
  · rintro h interval s announced hp rfl ht
    have hexec := exec_beaconMessage hp interval
    refine ⟨fun hat hflag => ?_, fun hat hflag => ?_, fun p hat => ⟨fun hflag => ?_, fun hflag hepoch => ?_,
      fun hflag hepoch => ?_⟩⟩
    · exact ⟨_, hexec, State.peerTakes_absent_spec hat hflag⟩
    · rw [hexec, State.peerTakes_departing_absent (b := .beacon interval) hat hflag]
    · rw [State.peerTakes_departing_present (b := .beacon interval) hat hflag] at hexec
      exact ⟨_, hexec, s.depart_spec h.source .departed p.epoch ht⟩
    · have hstays := State.peerTakes_sameEpoch_spec (b := .beacon interval) hat hflag hepoch
      rw [announcedInterval_beacon_or] at hstays
      exact ⟨_, hexec, hstays⟩
    · obtain ⟨u, hdeparted, harrived⟩ := State.peerTakes_newEpoch_spec (b := .beacon interval) ht hat hflag hepoch
      exact ⟨_, u, hexec, hdeparted, harrived⟩
  · have hexec := execPeerTimerExpiry_present hat
    refine ⟨fun h0 => ?_, fun hleft => ?_⟩
    · rw [if_pos h0] at hexec
      exact ⟨_, hexec, s.depart_spec x .timeout p.epoch ht⟩
    · rw [if_neg hleft] at hexec
      exact hexec

/-! ### The presence timer and the listen timer -/

/-- A change of the Station Controller is one of that part alone. -/
theorem State.withStation_changesOnly (s : State) (c : StationController) :
    ChangesOnly [.station] s { s with station := c } :=
  ⟨fun p hp => by cases p <;> simp_all [Part.same], rfl⟩

/-- A BEACON already owed stays as it is; else an ordinary one becomes owed (R125). -/
theorem owedBeacon_or (owed : Option OwedBeacon) (b : OwedBeacon) :
    owed.or (some b) = if owed = none then some b else owed := by
  cases owed <;> rfl

theorem State.presenceTime_loaded {s : State} {r : StartupRecord} (h : s.station.startup = some r) :
    s.presenceTime = 10 * r.presenceInterval.toNat := by
  unfold State.presenceTime
  rw [State.record_loaded h]

theorem execPresenceTimerExpiry_eq (s : State) :
    exec .presenceTimerExpiry s =
      .next (if s.station.presence = some 0 then
          { s with station := { s.station with
              presence := some s.presenceTime
              beacon := if s.station.beacon = none then some ⟨false, 0, false⟩ else s.station.beacon } }
        else s) := by
  show execPresenceTimerExpiry s = _
  unfold execPresenceTimerExpiry
  simp only [expired_iff, owedBeacon_or]

theorem execListenTimerExpiry_eq (s : State) :
    exec .listenTimerExpiry s =
      .next (if s.station.mode = .listening ∧ s.station.listen = some 0 then s.endListening else s) := by
  show execListenTimerExpiry s = _
  unfold execListenTimerExpiry
  simp only [expired_iff]

/-- Where the station is not WITHDRAWING a completion leaves the Station Controller alone (R159). -/
theorem State.completeHeld_station_of_mode {s : State} (hmode : s.station.mode ≠ .withdrawing) (tag : Option Octet)
    (e : Ending) : (s.completeHeld tag e).station = s.station := by
  have htested : WithdrawalTested s s := by
    unfold WithdrawalTested
    rw [if_neg fun h => hmode h.1]
  exact (htested.completeHeld tag e).station_of_mode hmode

/-- The end of the listen period completes the ATTACH, while listening the one pending request (R156). -/
theorem State.endListening_spec {s : State} {w : Octet} (hr : s.port.requests = [⟨w, .attach, none⟩]) :
    s.endListening.station = { s.station with mode := .active, listen := none } ∧
      s.endListening.port = { s.port with requests := [] } ∧
      s.endListening.events =
        { s.events with records := s.events.records ++ [.completion ⟨w, .attach, .ok, none, none, none, false⟩] } ∧
      ChangesOnly [.station, .port, .events] s s.endListening := by
  obtain ⟨u, hu⟩ : ∃ u : State, u = { s with station := { s.station with mode := .active, listen := none } } :=
    ⟨_, rfl⟩
  have hattach : s.stationRequest .attach = some w := by simp [State.stationRequest, hr]
  have hend : s.endListening = u.completeHeld (some w) { result := .ok } := by
    unfold State.endListening
    rw [hattach, hu]
  have hfound : u.requestWith w = some ⟨w, .attach, none⟩ := by simp [State.requestWith, hu, hr]
  obtain ⟨hport, hevents⟩ := State.complete_some (s := u) { result := .ok } hfound
  have honly := (s.withStation_changesOnly { s.station with mode := .active, listen := none }).mono
    (parts' := [.station, .port, .events]) (by simp)
  rw [← hu] at honly
  rw [hend]
  refine ⟨?_, hport.trans ?_, hevents.trans ?_, honly.trans (u.completeHeld_changesOnly ..)⟩
  · rw [State.completeHeld_station_of_mode (by simp [hu]), hu]
  · simp [hu, hr]
  · rw [hu]
    rfl

/-- Settles O51: each timer by whether it runs and has run out. -/
theorem presenceAndListenTimerExpiries : Obligations.PresenceAndListenTimerExpiries := by
  intro s r hr
  have hpresence := execPresenceTimerExpiry_eq s
  have hlisten := execListenTimerExpiry_eq s
  refine ⟨fun h0 => ?_, fun hleft => ?_, fun w hmode h0 hrequests => ?_, fun hleft => ?_⟩
  · rw [if_pos h0, State.presenceTime_loaded hr] at hpresence
    exact ⟨_, hpresence, rfl, State.withStation_changesOnly ..⟩
  · rw [if_neg hleft] at hpresence
    exact hpresence
  · rw [if_pos ⟨hmode, h0⟩] at hlisten
    exact ⟨_, hlisten, State.endListening_spec hrequests⟩
  · rw [if_neg (not_and_or.mpr hleft)] at hlisten
    exact hlisten

end Sys2Proof.Machine

/-! ## Formats and lines of the span: frames of the manual (O60), the receiver's reading of a message (O58), the lines
(O18), malformed messages (O48). -/

namespace Sys2Proof.Machine

/-- Settles O60: each frame is read octet by octet. -/
theorem framesOfTheManualReadAsTheirCommands : Obligations.FramesOfTheManualReadAsTheirCommands :=
  ⟨rfl, rfl, rfl, rfl, by decide +kernel⟩

/-! ### Fields and octets -/

/-- A word is the two fields it is cut into. -/
theorem append_eq_iff {n m : Nat} (x : BitVec n) (y : BitVec m) (z : BitVec (n + m)) :
    x ++ y = z ↔ x = z.extractLsb' m n ∧ y = z.extractLsb' 0 m := by
  constructor
  · rintro rfl
    exact ⟨BitVec.extractLsb'_append_eq_left.symm, BitVec.extractLsb'_append_eq_right.symm⟩
  · rintro ⟨rfl, rfl⟩
    exact BitVec.extractLsb'_append_extractLsb'

/-- Two fields side by side, as a shift and an or. -/
theorem append_eq_shiftLeft_or {n m : Nat} (x : BitVec n) (y : BitVec m) :
    x ++ y = x.setWidth (n + m) <<< m ||| y.setWidth (n + m) := by
  have h := BitVec.setWidth_append_eq_shiftLeft_setWidth_or (b := x) (b' := y) (w'' := n + m)
  rwa [BitVec.setWidth_eq] at h

theorem joinOctets_eq_iff (high low : Octet) (h : Half) :
    h = joinOctets high low ↔ high = highOctet h ∧ low = lowOctet h :=
  eq_comm.trans (append_eq_iff high low h)

/-! ### The span message read back -/

/-- A DATA body is read exactly when its length octet is its payload's length, 1 to 64 (R134). -/
theorem dataBody?_eq_some {q : Seq} {length : Octet} {payload : List Octet} {b : Body} :
    dataBody? q length payload = some b ↔
      b = .data q payload ∧ length = BitVec.ofNat 8 payload.length ∧ 1 ≤ payload.length ∧ payload.length ≤ 64 := by
  unfold dataBody?
  constructor
  · intro h
    split at h
    · rename_i hlength
      obtain ⟨hlow, hhigh, heq⟩ := hlength
      cases h
      exact ⟨rfl, by simp [heq], heq ▸ hlow, heq ▸ hhigh⟩
    · cases h
  · rintro ⟨rfl, rfl, hlow, hhigh⟩
    have hnat : (BitVec.ofNat 8 payload.length).toNat = payload.length := Nat.mod_eq_of_lt (by omega)
    rw [hnat, if_pos ⟨hlow, hhigh, rfl⟩]

/-- A DENY body is read exactly when its octet is the code of a reason (R133, R134). -/
theorem denyBody?_eq_some {octet : Octet} {b : Body} :
    denyBody? octet = some b ↔ ∃ reason : DenyReason, b = .deny reason ∧ octet = reason.code := by
  unfold denyBody?
  constructor
  · intro h
    obtain ⟨reason, hreason, rfl⟩ := Option.map_eq_some_iff.mp h
    refine ⟨reason, rfl, ?_⟩
    unfold DenyReason.ofCode? at hreason
    split at hreason
    · rename_i hcode
      cases hreason
      exact BitVec.eq_of_toNat_eq hcode
    · rename_i hcode
      cases hreason
      exact BitVec.eq_of_toNat_eq hcode
    · cases hreason
  · rintro ⟨reason, rfl, rfl⟩
    cases reason <;> rfl

/-- A kind code and the octets behind octet 4 are read as a body exactly when they are that body's (R133, R134). -/
theorem parseBody_eq_some {code : BitVec 4} {octets : List Octet} {b : Body} :
    parseBody code octets = some b ↔ code = b.kindCode ∧ octets = b.octets ∧ IntactBody b := by
  constructor
  · intro h
    unfold parseBody at h
    split at h
    case h_14 => cases h
    case h_6 hcode =>
      obtain ⟨reason, rfl, rfl⟩ := denyBody?_eq_some.mp h
      exact ⟨BitVec.eq_of_toNat_eq hcode, rfl, trivial⟩
    case h_12 hcode =>
      obtain ⟨rfl, rfl, hlow, hhigh⟩ := dataBody?_eq_some.mp h
      exact ⟨BitVec.eq_of_toNat_eq hcode, rfl, hlow, hhigh⟩
    all_goals
      rename_i hcode
      cases h
      exact ⟨BitVec.eq_of_toNat_eq hcode, rfl, trivial⟩
  · rintro ⟨rfl, rfl, hintact⟩
    cases b with
    | deny reason => cases reason <;> rfl
    | data q payload => exact dataBody?_eq_some.mpr ⟨rfl, rfl, hintact⟩
    | claim | hold | announce | join | admission | leave | left | drain | drained | release | beacon => rfl

/-- The header that the first five octets of a message spell is the message's, and they are its octets (R131, R132). -/
theorem parseHeader_eq_iff {o0 o1 o2 o3 o4 : Octet} {m : Message} (hclass : o0.extractLsb' 6 2 = m.body.messageClass)
    (hkind : o1.extractLsb' 4 4 = m.body.kindCode) :
    parseHeader o0 o1 o2 o3 o4 = m.header ↔
      o0 = m.contention ∧ o1 = m.body.kindCode ++ m.header.flags ∧ o2 = m.header.epoch ∧
        o3 = highOctet m.header.address ∧ o4 = lowOctet m.header.address := by
  have h0 : o0 = m.contention ↔ m.header.source = o0.extractLsb' 0 6 := by
    rw [eq_comm, Message.contention, append_eq_iff, hclass]
    simp
  have h1 : o1 = m.body.kindCode ++ m.header.flags ↔ m.header.flags = o1.extractLsb' 0 4 := by
    rw [eq_comm, append_eq_iff, hkind]
    simp
  have h34 : (o3 = highOctet m.header.address ∧ o4 = lowOctet m.header.address) ↔
      m.header.channel = (joinOctets o3 o4).extractLsb' 6 10 ∧
        m.header.destination = (joinOctets o3 o4).extractLsb' 0 6 := by
    rw [← joinOctets_eq_iff, Header.address, append_eq_iff]
  rw [h0, h1, h34]
  obtain ⟨⟨source, flags, epoch, channel, destination⟩, body⟩ := m
  simp only [parseHeader, Header.mk.injEq]
  tauto

/-- The octets before the check are read as a message exactly when they are that message's and it is intact. -/
theorem parseUnchecked_eq_some {octets : List Octet} {m : Message} :
    parseUnchecked octets = some m ↔ octets = m.unchecked ∧ m.header.valid = true ∧ IntactBody m.body := by
  constructor
  · intro h
    unfold parseUnchecked at h
    split at h
    · split at h
      · rename_i o0 o1 o2 o3 o4 rest _ b hb
        dsimp only at h
        split at h
        · rename_i hif
          obtain ⟨hclass, hvalid⟩ := hif
          obtain ⟨hkind, rfl, hintact⟩ := parseBody_eq_some.mp hb
          obtain rfl := Option.some.inj h
          obtain ⟨h0, h1, h2, h3, h4⟩ := (parseHeader_eq_iff (m := ⟨parseHeader o0 o1 o2 o3 o4, b⟩) hclass hkind).mp rfl
          refine ⟨?_, hvalid, hintact⟩
          unfold Message.unchecked
          rw [← h0, ← h1, ← h2, ← h3, ← h4]
        · cases h
      · cases h
    · cases h
  · rintro ⟨rfl, hvalid, hintact⟩
    have hclass : m.contention.extractLsb' 6 2 = m.body.messageClass := BitVec.extractLsb'_append_eq_left
    have hkind : (m.body.kindCode ++ m.header.flags).extractLsb' 4 4 = m.body.kindCode :=
      BitVec.extractLsb'_append_eq_left
    have hheader := (parseHeader_eq_iff hclass hkind).mpr ⟨rfl, rfl, rfl, rfl, rfl⟩
    unfold parseUnchecked Message.unchecked
    dsimp only
    rw [hkind, parseBody_eq_some.mpr ⟨rfl, rfl, hintact⟩]
    dsimp only
    rw [hheader, if_pos ⟨hclass, hvalid⟩]

/-- Settles O58: the last two octets are the check, and those before it the message's. -/
theorem receiverReadsExactlyTheOctetsOfAMessage : Obligations.ReceiverReadsExactlyTheOctetsOfAMessage := by
  intro octets m
  unfold parseMessage
  constructor
  · intro h
    dsimp only at h
    split at h
    · rename_i hcheck
      obtain ⟨hbody, hvalid, hintact⟩ := parseUnchecked_eq_some.mp h
      refine ⟨?_, hvalid, hintact⟩
      calc octets = octets.take (octets.length - 2) ++ octets.drop (octets.length - 2) :=
            (List.take_append_drop ..).symm
        _ = m.octets := by rw [hcheck, hbody]; rfl
    · cases h
  · rintro ⟨rfl, hvalid, hintact⟩
    have hlength : m.octets.length - 2 = m.unchecked.length := by simp [Message.octets, halfOctets]
    dsimp only
    rw [hlength, Message.octets, List.take_left, List.drop_left, if_pos rfl]
    exact parseUnchecked_eq_some.mpr ⟨rfl, hvalid, hintact⟩

/-! ### The lines -/

theorem highOctet_append (c : Channel) (d : Station) : highOctet (c ++ d) = (c.setWidth 16).extractLsb' 2 8 := by
  unfold highOctet
  rw [BitVec.extractLsb'_append_eq_of_le (by decide)]
  ext i hi
  have hbit : 2 + i < 16 := by omega
  simp [hbit]

theorem lowOctet_append (c : Channel) (d : Station) :
    lowOctet (c ++ d) = (c.extractLsb' 0 2).setWidth 8 <<< 6 ||| d.setWidth 8 := by
  have hlow : lowOctet (c ++ d) = c.extractLsb' 0 2 ++ d := by
    unfold lowOctet
    rw [BitVec.extractLsb'_append_eq_ite, dif_pos (by decide), dif_neg (by decide)]
    simp
  rw [hlow]
  exact append_eq_shiftLeft_or ..

/-- The contention field: class first, source behind it (R131). -/
theorem contention_eq (m : Message) :
    m.contention =
      (match m.body with
        | .data _ _ => 0x80 | .beacon _ => 0x40 | _ => 0x00) ||| m.header.source.setWidth 8 := by
  unfold Message.contention
  rw [append_eq_shiftLeft_or]
  cases m.body <;> rfl

/-- Octet 1: kind first, flags behind it (R132). -/
theorem kindOctet_eq (m : Message) :
    (m.body.kindCode ++ m.header.flags : Octet) =
      (match m.body with
        | .claim => 0x10 | .hold => 0x20 | .announce => 0x30 | .join => 0x40 | .admission _ => 0x50 | .deny _ => 0x60
        | .leave => 0x70 | .left => 0x80 | .drain => 0x90 | .drained => 0xA0 | .release => 0xB0 | .data _ _ => 0xC0
        | .beacon _ => 0xD0) ||| m.header.flags.setWidth 8 := by
  rw [append_eq_shiftLeft_or]
  cases m.body <;> rfl

/-- The first five octets of a message on the line, field by field (R132). -/
theorem octets_take_five (m : Message) :
    m.octets.take 5 =
      [(match m.body with
        | .data _ _ => 0x80 | .beacon _ => 0x40 | _ => 0x00) ||| m.header.source.setWidth 8,
       (match m.body with
        | .claim => 0x10 | .hold => 0x20 | .announce => 0x30 | .join => 0x40 | .admission _ => 0x50 | .deny _ => 0x60
        | .leave => 0x70 | .left => 0x80 | .drain => 0x90 | .drained => 0xA0 | .release => 0xB0 | .data _ _ => 0xC0
        | .beacon _ => 0xD0) ||| m.header.flags.setWidth 8,
       m.header.epoch, (m.header.channel.setWidth 16).extractLsb' 2 8,
       ((m.header.channel.extractLsb' 0 2).setWidth 8 <<< 6) ||| m.header.destination.setWidth 8] := by
  rw [← contention_eq, ← kindOctet_eq, ← highOctet_append _ m.header.destination, ← lowOctet_append]
  rfl

/-- ATTN is asserted by a stored record or by a selected queue that holds a cell (R179). -/
theorem State.attn_iff (s : State) :
    s.attn = true ↔ s.events.records ≠ [] ∨
      ∃ r, s.station.startup = some r ∧
        ∃ q ∈ allQueues, r.attentionMask.getLsbD q.number = true ∧ (s.store.queue q).cells ≠ [] := by
  unfold State.attn selected
  cases s.station.startup <;> simp

/-- Settles O18: line by line, each the function of the state that the rules give. -/
theorem linesFollowTheState : Obligations.LinesFollowTheState := by
  intro s
  refine ⟨?_, fun hidle => ?_, fun a ha => ⟨?_, ?_, ?_⟩, ?_, ?_, fun hopen => ⟨?_, fun n hn => ?_, fun n hn => ?_⟩⟩
  · simp [State.receiverOn]
  · simp [State.spanDe, State.spanTx, hidle]
  · simp [State.spanDe, ha]
  · simp [State.spanTx, ha]
  · exact octets_take_five a.message
  · rw [State.attn_iff]
    simp [allQueues, QueueName.number, CellStore.queue]
  · simp [State.sdo]
  · simp [State.sdo, hopen.1]
  · simp [State.sdo, hopen.1, hopen.2, hn]
  · simp [State.sdo, hopen.1, hopen.2, hn]

/-! ### Malformed messages -/

theorem State.countMalformed_changesOnly (s : State) : ChangesOnly [.span] s s.countMalformed :=
  ⟨fun p hp => by cases p <;> simp_all [Part.same], rfl⟩

/-- A body that is none, and a header that fails R134, are counted as malformed while the receiver is on. -/
theorem State.receive_malformed {s : State} (hon : s.receiverOn = true) {h : Header} {b : Option Body}
    (hbad : b = none ∨ h.valid = false) : s.receive h b = s.countMalformed := by
  unfold State.receive
  rw [if_neg (by simp [hon])]
  cases b with
  | none => rfl
  | some b =>
    have hvalid := hbad.resolve_left (by simp)
    dsimp only
    rw [if_pos hvalid]

theorem header_valid_eq_false_iff (h : Header) : h.valid = false ↔ h.source = 0 ∨ h.source = 63 ∨ h.epoch = 0 := by
  simp [Header.valid]
  tauto

/-- Settles O48: octets that do not parse, a header that fails, a DATA length that fails. -/
theorem malformedMessagesAreCountedAndReachNoOtherBlock :
    Obligations.MalformedMessagesAreCountedAndReachNoOtherBlock := by
  intro s c hc
  suffices hexec : exec c s = .next (if s.receiverOn then s.countMalformed else s) by
    refine ⟨fun hoff => by simpa [hoff] using hexec, fun hon => ⟨_, by simpa [hon] using hexec, rfl, ?_⟩⟩
    exact s.countMalformed_changesOnly
  have hreceive : ∀ h b, b = none ∨ h.valid = false →
      s.receive h b = if s.receiverOn then s.countMalformed else s := by
    intro h b hbad
    cases hon : s.receiverOn with
    | true => exact State.receive_malformed hon hbad
    | false => exact State.receive_off hon h b
  rcases hc with ⟨octets, rfl, hparse⟩ | ⟨h, b, rfl, hintact, hheader⟩ | ⟨h, q, length, payload, rfl, hlength⟩
  · show execMalformedMessage octets s = _
    unfold execMalformedMessage
    rw [hparse]
  · rw [exec_messageCommand h b s hintact, hreceive h _ (.inr ((header_valid_eq_false_iff h).mpr hheader))]
  · have hbody : dataBody? q length payload = none := by
      unfold dataBody?
      rw [if_neg (by omega)]
    show execDataMessage h q length payload s = _
    unfold execDataMessage
    rw [hreceive h _ (.inl hbody)]

end Sys2Proof.Machine

/-! ## The span's scheduler and a lost contention: which message an attempt carries (O27), and what it leaves when it
loses (O28). -/

namespace Sys2Proof.Machine

/-! ### The Span Interface beside another part -/

theorem State.setAttempt_changesOnly (s : State) (a : Option Attempt) : ChangesOnly [.span] s (s.setAttempt a) :=
  ⟨fun p hp => by cases p <;> simp_all [Part.same], rfl⟩

theorem State.setReplies_changesOnly (s : State) (replies : List Reply) :
    ChangesOnly [.span] s (s.setReplies replies) :=
  ⟨fun p hp => by cases p <;> simp_all [Part.same], rfl⟩

theorem State.setBeacon_changesOnly (s : State) (b : Option OwedBeacon) : ChangesOnly [.station] s (s.setBeacon b) :=
  s.withStation_changesOnly _

theorem State.setFifo_changesOnly (s : State) (fifo : List FifoEntry) : ChangesOnly [.store] s (s.setFifo fifo) :=
  ⟨fun p hp => by cases p <;> simp_all [Part.same], rfl⟩

section
variable {parts : List Part} {s u t : State}

/-- An attempt begins with, or ends before, a change of other parts. -/
theorem ChangesOnly.span_then (h : ChangesOnly [.span] s u) (h' : ChangesOnly parts u t) :
    ChangesOnly (.span :: parts) s t :=
  (h.mono (by simp)).trans (h'.mono fun _ => List.mem_cons_of_mem _)

theorem ChangesOnly.then_span (h : ChangesOnly parts s u) (h' : ChangesOnly [.span] u t) :
    ChangesOnly (.span :: parts) s t :=
  (h.mono fun _ => List.mem_cons_of_mem _).trans (h'.mono (by simp))

end

/-! ### The lowest-numbered row that owes a message -/

theorem owingSlot_eq_findSome? (m : FMap Slot) :
    owingSlot m = m.findSome? fun row => row.2.owed.map fun o => (row.1, row.2, o) := by
  induction m with
  | nil => rfl
  | cons row rest ih =>
    obtain ⟨i, sl⟩ := row
    unfold owingSlot
    cases ho : sl.owed <;> simp [ho, ih]

theorem owingContext_eq_findSome? (m : FMap Context) :
    owingContext m = m.findSome? fun row => row.2.owed.map fun o => (row.1, row.2, o) := by
  induction m with
  | nil => rfl
  | cons row rest ih =>
    obtain ⟨i, k⟩ := row
    unfold owingContext
    cases ho : k.owed <;> simp [ho, ih]

/-- In canonical form, the first row that answers is the lowest-numbered one that does. -/
theorem FMap.findSome?_eq_some {α β : Type} {bound : Nat} {m : FMap α} (hwf : FMap.wf bound m = true)
    {f : Nat × α → Option β} {i : Nat} {v : α} {b : β} (hi : FMap.find? m i = some v) (hb : f (i, v) = some b)
    (hlow : ∀ j, j < i → ∀ w, FMap.find? m j = some w → f (j, w) = none) : List.findSome? f m = some b := by
  induction m with
  | nil => simp at hi
  | cons row rest ih =>
    obtain ⟨k, w⟩ := row
    obtain ⟨-, hrest, hwf'⟩ := (FMap.wf_cons bound k w rest).mp hwf
    rw [FMap.find?_cons] at hi
    split at hi
    · rename_i hki
      subst hki
      obtain rfl := Option.some.inj hi
      rw [List.findSome?_cons, hb]
    · have hki : k < i := hrest _ (FMap.mem_of_find? hi)
      rw [List.findSome?_cons, hlow k hki w (by simp [FMap.find?_cons])]
      refine ih hwf' hi fun j hj x hx => hlow j hj x ?_
      have hkj : k < j := hrest _ (FMap.mem_of_find? hx)
      rw [FMap.find?_cons, if_neg (by omega), hx]

/-- In canonical form, no row answers when none that is found does. -/
theorem FMap.findSome?_eq_none {α β : Type} {bound : Nat} {m : FMap α} (hwf : FMap.wf bound m = true)
    {f : Nat × α → Option β} (h : ∀ i v, FMap.find? m i = some v → f (i, v) = none) : List.findSome? f m = none :=
  List.findSome?_eq_none_iff.mpr fun row hrow => h row.1 row.2 (FMap.find?_of_mem hwf hrow)

section
variable {s : State}

theorem State.offerSlot_eq_some (ht : TableLaw s) {i : Nat} {sl : Slot} {o : SlotOwed} (hs : s.slotAt i = some sl)
    (ho : sl.owed = some o) (hlow : ∀ j, j < i → ∀ sl', s.slotAt j = some sl' → sl'.owed = none) :
    s.offerSlot = some ⟨.slot i, s.ownMessage false sl.channel 0 o.kind.body⟩ := by
  have howing : owingSlot s.slots = some (i, sl, o) := by
    rw [owingSlot_eq_findSome?]
    exact FMap.findSome?_eq_some ht.wf_slots hs (by simp [ho]) fun j hj sl' hsl => by simp [hlow j hj sl' hsl]
  unfold State.offerSlot
  rw [howing]
  rfl

theorem State.offerSlot_eq_none (ht : TableLaw s) (h : ∀ i sl, s.slotAt i = some sl → sl.owed = none) :
    s.offerSlot = none := by
  have howing : owingSlot s.slots = none := by
    rw [owingSlot_eq_findSome?]
    exact FMap.findSome?_eq_none ht.wf_slots fun i sl hs => by simp [h i sl hs]
  unfold State.offerSlot
  rw [howing]
  rfl

theorem State.offerContext_eq_some (ht : TableLaw s) {i : Nat} {k : Context} {o : ContextOwed}
    (hk : s.contextAt i = some k) (ho : k.owed = some o)
    (hlow : ∀ j, j < i → ∀ k', s.contextAt j = some k' → k'.owed = none) :
    s.offerContext = some ⟨.context i, s.ownMessage false k.channel o.destination o.kind.body⟩ := by
  have howing : owingContext s.contexts = some (i, k, o) := by
    rw [owingContext_eq_findSome?]
    exact FMap.findSome?_eq_some ht.wf_contexts hk (by simp [ho]) fun j hj k' hk' => by simp [hlow j hj k' hk']
  unfold State.offerContext
  rw [howing]
  rfl

theorem State.offerContext_eq_none (ht : TableLaw s) (h : ∀ i k, s.contextAt i = some k → k.owed = none) :
    s.offerContext = none := by
  have howing : owingContext s.contexts = none := by
    rw [owingContext_eq_findSome?]
    exact FMap.findSome?_eq_none ht.wf_contexts fun i k hk => by simp [h i k hk]
  unfold State.offerContext
  rw [howing]
  rfl

end

/-! ### The mark of the message on the wire -/

section
variable {s : State}

theorem State.mark_reply {r : Reply} {rest : List Reply} (h : s.span.replies = r :: rest) (wire : Bool) :
    s.mark .reply wire = s.setReplies ({ r with onWire := wire } :: rest) := by
  unfold State.mark
  rw [h]
  rfl

theorem State.mark_slot {i : Nat} {sl : Slot} {o : SlotOwed} (hs : s.slotAt i = some sl) (ho : sl.owed = some o)
    (wire : Bool) : s.mark (.slot i) wire = s.putSlot i { sl with owed := some { o with onWire := wire } } := by
  unfold State.mark
  dsimp only
  rw [show FMap.find? s.slots i = some sl from hs]
  dsimp only
  rw [ho, Option.map_some]

theorem State.mark_context {i : Nat} {k : Context} {o : ContextOwed} (hk : s.contextAt i = some k)
    (ho : k.owed = some o) (wire : Bool) :
    s.mark (.context i) wire = s.putContext i { k with owed := some { o with onWire := wire } } := by
  unfold State.mark
  dsimp only
  rw [show FMap.find? s.contexts i = some k from hk]
  dsimp only
  rw [ho, Option.map_some]

theorem State.mark_beacon {b : OwedBeacon} (h : s.station.beacon = some b) (wire : Bool) :
    s.mark .beacon wire = s.setBeacon (some { b with onWire := wire }) := by
  unfold State.mark State.setBeacon
  dsimp only
  rw [h, Option.map_some]

theorem State.mark_fifo {c : Channel} {q : Seq} {payload : List Octet} {attempts : Nat} {w purged : Bool}
    {rest : List FifoEntry} (h : s.store.fifo = .data c q payload attempts w purged :: rest) (wire : Bool) :
    s.mark .fifo wire = s.setFifo (.data c q payload attempts wire purged :: rest) := by
  unfold State.mark
  dsimp only
  rw [h]
  rfl

end

/-! ### An attempt begins -/

section
variable {s : State}

theorem exec_transmitAttempt_off (h : s.transmitterOn = false ∨ s.span.attempt ≠ none) :
    exec .transmitAttempt s = .next s := by
  show execTransmitAttempt s = _
  unfold execTransmitAttempt
  rw [if_neg]
  rintro ⟨hon, hidle⟩
  rcases h with h | h
  · simp [h] at hon
  · exact h hidle

theorem exec_transmitAttempt_nothing (hpick : s.pick = none) : exec .transmitAttempt s = .next s := by
  show execTransmitAttempt s = _
  unfold execTransmitAttempt
  rw [hpick]
  split <;> rfl

theorem exec_transmitAttempt_pick (hon : s.transmitterOn = true) (hidle : s.span.attempt = none) {a : Attempt}
    (hpick : s.pick = some a) : exec .transmitAttempt s = .next ((s.mark a.sender true).setAttempt (some a)) := by
  show execTransmitAttempt s = _
  unfold execTransmitAttempt
  rw [if_pos ⟨hon, hidle⟩, hpick]

end

/-- Settles O27: source by source in the scheduler's order, each offered when those before it have nothing. -/
theorem transmitAttemptOffersTheFirstMessageInOrder : Obligations.TransmitAttemptOffersTheFirstMessageInOrder := by
  intro s r hr ht
  refine ⟨exec_transmitAttempt_off, fun hon hidle => ⟨fun reply rest hreplies => ?_, fun hreplies => ?_⟩⟩
  · have hpick : s.pick =
        some ⟨.reply, s.ownMessage false reply.channel reply.destination reply.kind.body⟩ := by
      simp [State.pick, State.offerReply, hreplies]
    have hexec := exec_transmitAttempt_pick hon hidle hpick
    rw [State.mark_reply hreplies] at hexec
    refine ⟨_, hexec, ?_, (s.setReplies_changesOnly _).trans (State.setAttempt_changesOnly ..)⟩
    cases reply.kind <;> rfl
  have hreply : s.offerReply = none := by simp [State.offerReply, hreplies]
  refine ⟨fun i sl o hs ho hlow => ?_, fun hslots => ?_⟩
  · have hpick : s.pick = some ⟨.slot i, s.ownMessage false sl.channel 0 o.kind.body⟩ := by
      simp [State.pick, hreply, State.offerSlot_eq_some ht hs ho hlow]
    have hexec := exec_transmitAttempt_pick hon hidle hpick
    rw [State.mark_slot hs ho] at hexec
    obtain ⟨hat, hothers, honly⟩ := s.putSlot_spec i { sl with owed := some { o with onWire := true } }
    refine ⟨_, hexec, ?_, hat, hothers, honly.then_span (State.setAttempt_changesOnly ..)⟩
    cases o.kind <;> rfl
  have hslot := State.offerSlot_eq_none ht hslots
  refine ⟨fun i k o hk ho hlow => ?_, fun hcontexts => ?_⟩
  · have hpick : s.pick = some ⟨.context i, s.ownMessage false k.channel o.destination o.kind.body⟩ := by
      simp [State.pick, hreply, hslot, State.offerContext_eq_some ht hk ho hlow]
    have hexec := exec_transmitAttempt_pick hon hidle hpick
    rw [State.mark_context hk ho] at hexec
    obtain ⟨hat, hothers, honly⟩ := s.putContext_spec i { k with owed := some { o with onWire := true } }
    refine ⟨_, hexec, ?_, hat, hothers, honly.then_span (State.setAttempt_changesOnly ..)⟩
    cases o.kind <;> rfl
  have hcontext := State.offerContext_eq_none ht hcontexts
  refine ⟨fun b hb => ?_, fun hb => ⟨fun c q payload attempts wire purged rest hfifo => ?_, fun hfifo => ?_⟩⟩
  · have hpick : s.pick = some ⟨.beacon, s.ownMessage b.departing 0 0 (.beacon r.presenceInterval)⟩ := by
      simp [State.pick, hreply, hslot, hcontext, State.offerBeacon, hb, State.record_loaded hr]
    have hexec := exec_transmitAttempt_pick hon hidle hpick
    rw [State.mark_beacon hb] at hexec
    exact ⟨_, hexec, rfl, rfl, (s.setBeacon_changesOnly _).then_span (State.setAttempt_changesOnly ..)⟩
  all_goals have hbeacon : s.offerBeacon = none := by simp [State.offerBeacon, hb]
  · have hpick : s.pick = some ⟨.fifo, s.ownMessage false c 0 (.data q payload)⟩ := by
      simp [State.pick, hreply, hslot, hcontext, hbeacon, State.offerData, hfifo]
    have hexec := exec_transmitAttempt_pick hon hidle hpick
    rw [State.mark_fifo hfifo] at hexec
    exact ⟨_, hexec, rfl, rfl, (s.setFifo_changesOnly _).then_span (State.setAttempt_changesOnly ..)⟩
  · exact exec_transmitAttempt_nothing (by simp [State.pick, hreply, hslot, hcontext, hbeacon, State.offerData, hfifo])

/-! ### Lost contention -/

theorem exec_lostContention {s : State} {a : Attempt} (ha : s.span.attempt = some a) :
    exec .lostContention s = .next ((s.setAttempt none).loseContention a.sender) := by
  show execLostContention s = _
  unfold execLostContention
  rw [ha]

section
variable {s : State}

theorem State.loseContention_reply {r : Reply} {rest : List Reply} (h : s.span.replies = r :: rest)
    (hwire : r.onWire = true) :
    s.loseContention .reply = s.setReplies (if r.overtaken then rest else { r with onWire := false } :: rest) := by
  unfold State.loseContention State.wireReply
  rw [h]
  dsimp only
  rw [if_pos hwire]
  dsimp only
  split
  · rfl
  · exact State.mark_reply h false

theorem State.loseContention_fifo {c : Channel} {q : Seq} {payload : List Octet} {attempts : Nat} {purged : Bool}
    {rest : List FifoEntry} (h : s.store.fifo = .data c q payload attempts true purged :: rest) :
    s.loseContention .fifo =
      if purged then s.dropHeadData else s.setFifo (.data c q payload attempts false purged :: rest) := by
  unfold State.loseContention
  dsimp only
  rw [h]
  cases purged with
  | true => rfl
  | false => exact State.mark_fifo h false

end

/-- Settles O28: the message of each sender stays, its mark cleared; the overtaken ones leave. -/
theorem lostContentionLeavesTheMessageAndTheCounts : Obligations.LostContentionLeavesTheMessageAndTheCounts := by
  intro s a ha
  have hexec := exec_lostContention ha
  have hended := s.setAttempt_changesOnly none
  refine ⟨fun i sl o hsender hs ho => ?_, fun i k o hsender hk ho => ?_, fun b hsender hb => ?_,
    fun r rest hsender hreplies hwire => ?_, fun c q payload attempts rest hsender hfifo => ?_,
    fun c q payload attempts rest hsender hfifo => ?_⟩
  all_goals rw [hsender] at hexec
  · have hmark := State.mark_slot (s := s.setAttempt none) hs ho false
    obtain ⟨hat, hothers, honly⟩ :=
      (s.setAttempt none).putSlot_spec i { sl with owed := some { o with onWire := false } }
    exact ⟨_, hexec.trans (congrArg _ hmark), rfl, hat, hothers, hended.span_then honly⟩
  · have hmark := State.mark_context (s := s.setAttempt none) hk ho false
    obtain ⟨hat, hothers, honly⟩ :=
      (s.setAttempt none).putContext_spec i { k with owed := some { o with onWire := false } }
    exact ⟨_, hexec.trans (congrArg _ hmark), rfl, hat, hothers, hended.span_then honly⟩
  · have hmark := State.mark_beacon (s := s.setAttempt none) hb false
    exact ⟨_, hexec.trans (congrArg _ hmark), rfl, rfl, hended.span_then (State.setBeacon_changesOnly ..)⟩
  · rw [State.loseContention_reply (s := s.setAttempt none) hreplies hwire] at hexec
    exact ⟨_, hexec, rfl, hended.trans (State.setReplies_changesOnly ..)⟩
  · rw [State.loseContention_fifo (s := s.setAttempt none) hfifo, if_neg (by simp)] at hexec
    exact ⟨_, hexec, rfl, rfl, hended.span_then (State.setFifo_changesOnly ..)⟩
  · rw [State.loseContention_fifo (s := s.setAttempt none) hfifo, if_pos rfl] at hexec
    obtain ⟨hstore, hsnapshots, hothers, honly⟩ := State.dropHeadData_spec (s := s.setAttempt none) hfifo
    exact ⟨_, hexec, by simp, hstore, hsnapshots, hothers, hended.span_then honly⟩

end Sys2Proof.Machine

/-! ## The end of an attempt: the echo (O29, O30, O31), the overtaken attempt (O32), the failure below the attempt limit
(O33) and at it (O34), the 32nd consecutive failure (O35). -/

namespace Sys2Proof.Machine

/-! ### The attempt ends, and the count of consecutive failures takes its value -/

/-- The state an owner's rule starts from: no attempt in progress, and the consecutive-failure count n (R137, R141). -/
def State.attemptEnded (s : State) (n : Nat) : State := (s.setAttempt none).setFailures n

theorem State.attemptEnded_changesOnly (s : State) (n : Nat) : ChangesOnly [.span] s (s.attemptEnded n) :=
  ⟨fun p hp => by cases p <;> simp_all [Part.same, State.attemptEnded], rfl⟩

theorem exec_echo {s : State} {a : Attempt} (ha : s.span.attempt = some a) :
    exec .echo s = .next ((s.attemptEnded 0).echoTo a.sender) := by
  show execEcho s = _
  unfold execEcho
  rw [ha]
  rfl

theorem exec_failedAttempt {s : State} {a : Attempt} (ha : s.span.attempt = some a) (cause : AttemptFailure) :
    exec (.failedAttempt cause) s =
      .next ((s.attemptEnded (countFailure s.span.failures)).failTo a.sender).muteOnFailures := by
  show execFailedAttempt cause s = _
  unfold execFailedAttempt
  rw [ha]
  rfl

/-! ### No owner's rule reads the count of consecutive failures -/

/-- The withdrawal's test is a change of the Station Controller (R159). -/
theorem State.testWithdrawal_eq (s : State) :
    s.testWithdrawal =
      { s with
        station :=
          if s.station.mode = .withdrawing ∧ s.nothingRemains = true ∧ s.departingOwed = false then
            { s.station with beacon := some ⟨true, 0, false⟩ }
          else s.station } := by
  unfold State.testWithdrawal
  split <;> rfl

section
variable {s t : State} {n : Nat}

theorem State.testWithdrawal_setFailures (h : t = s.setFailures n) :
    t.testWithdrawal = s.testWithdrawal.setFailures n := by
  subst h
  rw [State.testWithdrawal_eq, State.testWithdrawal_eq]
  rfl

theorem State.completeHeld_setFailures (h : t = s.setFailures n) (tag : Option Octet) (e : Ending) :
    t.completeHeld tag e = (s.completeHeld tag e).setFailures n := by
  subst h
  cases tag with
  | none => rfl
  | some w =>
    show (s.setFailures n).complete w e = (s.complete w e).setFailures n
    unfold State.complete
    rw [show (s.setFailures n).requestWith w = s.requestWith w from rfl]
    cases s.requestWith w with
    | none => rfl
    | some r => exact State.testWithdrawal_setFailures rfl

theorem State.freeSlot_setFailures (s : State) (n i : Nat) (c : Channel) (x : Option Station) :
    (s.setFailures n).freeSlot i c x = (s.freeSlot i c x).setFailures n := by
  unfold State.freeSlot
  exact State.testWithdrawal_setFailures rfl

theorem State.takeSnapshot_setFailures (s : State) (n : Nat) (c : Channel) :
    (s.setFailures n).takeSnapshot c = (s.takeSnapshot c).setFailures n := by
  unfold State.takeSnapshot
  rw [show (s.setFailures n).slotOf c = s.slotOf c from rfl]
  cases s.slotOf c <;> rfl

theorem State.dropHeadData_setFailures (s : State) (n : Nat) :
    (s.setFailures n).dropHeadData = s.dropHeadData.setFailures n := by
  unfold State.dropHeadData State.consumeMarkers
  rw [show (s.setFailures n).store.fifo = s.store.fifo from rfl]
  split
  · rename_i rest _
    exact List.foldl_hom (fun u : State => u.setFailures n)
      (init := (s.setFifo (withoutHeadMarkers rest)).freeBuffers 1)
      fun u c => State.takeSnapshot_setFailures u n c
  · rfl

theorem State.endRelease_setFailures (s : State) (n i : Nat) (sl : Slot) (unannounced : Bool) :
    (s.setFailures n).endRelease i sl unannounced = (s.endRelease i sl unannounced).setFailures n := by
  have hfreed := State.freeSlot_setFailures s n i sl.channel none
  exact State.completeHeld_setFailures (s := (s.freeSlot i sl.channel none).purgeReplies sl.channel)
    (congrArg (fun u : State => u.purgeReplies sl.channel) hfreed) _ _

theorem State.failClaim_setFailures (s : State) (n i : Nat) (sl : Slot) :
    (s.setFailures n).failClaim i sl = (s.failClaim i sl).setFailures n :=
  State.completeHeld_setFailures (State.freeSlot_setFailures ..) _ _

theorem State.failSlot_setFailures (s : State) (n i : Nat) (sl : Slot) (o : SlotOwed) :
    (s.setFailures n).failSlot i sl o = (s.failSlot i sl o).setFailures n := by
  have habandon : (s.setFailures n).abandonSlot i sl o.kind = (s.abandonSlot i sl o.kind).setFailures n := by
    unfold State.abandonSlot
    split
    · exact State.failClaim_setFailures ..
    · split
      · exact State.failClaim_setFailures ..
      · rfl
    · rfl
    · exact State.endRelease_setFailures ..
  unfold State.failSlot
  rw [show (s.setFailures n).attemptLimit = s.attemptLimit from rfl, habandon]
  split <;> rfl

theorem State.failContext_setFailures (s : State) (n i : Nat) (k : Context) (o : ContextOwed) :
    (s.setFailures n).failContext i k o = (s.failContext i k o).setFailures n := by
  unfold State.failContext State.abandonContext
  rw [show (s.setFailures n).attemptLimit = s.attemptLimit from rfl]
  cases o.kind <;> split <;> rfl

theorem State.failBeacon_setFailures (s : State) (n : Nat) (b : OwedBeacon) :
    (s.setFailures n).failBeacon b = (s.failBeacon b).setFailures n := by
  have hend : (s.setFailures n).endWithdrawal = s.endWithdrawal.setFailures n :=
    congrArg State.enterDetached
      (State.completeHeld_setFailures (s := s) rfl (s.stationRequest .withdraw) { result := .ok })
  unfold State.failBeacon State.endBeacon
  rw [show (s.setFailures n).attemptLimit = s.attemptLimit from rfl, hend]
  (repeat' split) <;> rfl

theorem State.failReply_setFailures (s : State) (n : Nat) (r : Reply) (rest : List Reply) :
    (s.setFailures n).failReply r rest = (s.failReply r rest).setFailures n := by
  unfold State.failReply
  rw [show (s.setFailures n).replyLimit r.kind = s.replyLimit r.kind from rfl]
  split <;> rfl

theorem State.failData_setFailures (s : State) (n : Nat) : (s.setFailures n).failData = s.failData.setFailures n := by
  unfold State.failData
  rw [show (s.setFailures n).store.fifo = s.store.fifo from rfl]
  split
  · rw [show (s.setFailures n).attemptLimit = s.attemptLimit from rfl,
      show (s.setFailures n).countSendFailure = s.countSendFailure.setFailures n from rfl,
      State.dropHeadData_setFailures, State.dropHeadData_setFailures]
    (repeat' split) <;> rfl
  · rfl

/-- The failure of a message has the same effect whatever the count of consecutive failures is. -/
theorem State.failTo_setFailures (s : State) (n : Nat) (sender : Sender) :
    (s.setFailures n).failTo sender = (s.failTo sender).setFailures n := by
  unfold State.failTo
  cases sender with
  | reply =>
    dsimp only
    rw [show (s.setFailures n).wireReply = s.wireReply from rfl]
    cases s.wireReply with
    | none => rfl
    | some row => exact State.failReply_setFailures ..
  | slot i =>
    dsimp only
    rw [show (s.setFailures n).standingSlot i = s.standingSlot i from rfl]
    cases s.standingSlot i with
    | none => rfl
    | some row => exact State.failSlot_setFailures ..
  | context i =>
    dsimp only
    rw [show (s.setFailures n).standingContext i = s.standingContext i from rfl]
    cases s.standingContext i with
    | none => rfl
    | some row => exact State.failContext_setFailures ..
  | beacon =>
    dsimp only
    rw [show (s.setFailures n).standingBeacon = s.standingBeacon from rfl]
    cases s.standingBeacon with
    | none => rfl
    | some b => exact State.failBeacon_setFailures ..
  | fifo => exact State.failData_setFailures ..

end

@[simp] theorem State.failTo_failures (s : State) (sender : Sender) :
    (s.failTo sender).span.failures = s.span.failures := by
  have h : s.failTo sender = (s.failTo sender).setFailures s.span.failures :=
    State.failTo_setFailures s s.span.failures sender
  rw [h]
  rfl

/-- Below the 32nd consecutive failure the owner's rule is the whole effect (R141). -/
theorem exec_failedAttempt_below {s : State} {a : Attempt} (ha : s.span.attempt = some a) (hf : s.span.failures < 31)
    (cause : AttemptFailure) :
    exec (.failedAttempt cause) s = .next ((s.attemptEnded (s.span.failures + 1)).failTo a.sender) := by
  have hcount : countFailure s.span.failures = s.span.failures + 1 :=
    Nat.min_eq_right (by unfold Config.failureLimit; omega)
  rw [exec_failedAttempt ha, hcount]
  unfold State.muteOnFailures
  rw [if_neg]
  rintro ⟨hlimit, -⟩
  rw [State.failTo_failures] at hlimit
  have hlimit : s.span.failures + 1 = 32 := hlimit
  omega

/-! ### The owner of the message, and whether the message still stands -/

section
variable {s : State}

theorem State.standingSlot_eq_some {i : Nat} {sl : Slot} {o : SlotOwed} (hs : s.slotAt i = some sl)
    (ho : sl.owed = some o) (hwire : o.onWire = true) : s.standingSlot i = some (sl, o) := by
  unfold State.standingSlot
  rw [show FMap.find? s.slots i = some sl from hs, Option.bind_some, ho, Option.bind_some, if_pos hwire]

theorem State.standingSlot_eq_none {i : Nat}
    (h : ∀ sl o, s.slotAt i = some sl → sl.owed = some o → o.onWire = false) : s.standingSlot i = none := by
  refine Option.bind_eq_none_iff.mpr fun sl hs => Option.bind_eq_none_iff.mpr fun o ho => if_neg ?_
  simp [h sl o hs ho]

theorem State.standingContext_eq_some {i : Nat} {k : Context} {o : ContextOwed} (hk : s.contextAt i = some k)
    (ho : k.owed = some o) (hwire : o.onWire = true) : s.standingContext i = some (k, o) := by
  unfold State.standingContext
  rw [show FMap.find? s.contexts i = some k from hk, Option.bind_some, ho, Option.bind_some, if_pos hwire]

theorem State.standingContext_eq_none {i : Nat}
    (h : ∀ k o, s.contextAt i = some k → k.owed = some o → o.onWire = false) : s.standingContext i = none := by
  refine Option.bind_eq_none_iff.mpr fun k hk => Option.bind_eq_none_iff.mpr fun o ho => if_neg ?_
  simp [h k o hk ho]

theorem State.standingBeacon_eq_some {b : OwedBeacon} (hb : s.station.beacon = some b) (hwire : b.onWire = true) :
    s.standingBeacon = some b := by
  unfold State.standingBeacon
  rw [hb, Option.bind_some, if_pos hwire]

theorem State.standingBeacon_eq_none (h : ∀ b, s.station.beacon = some b → b.onWire = false) :
    s.standingBeacon = none := by
  refine Option.bind_eq_none_iff.mpr fun b hb => if_neg ?_
  simp [h b hb]

theorem State.wireReply_eq_some {r : Reply} {rest : List Reply} (h : s.span.replies = r :: rest)
    (hwire : r.onWire = true) : s.wireReply = some (r, rest) := by
  unfold State.wireReply
  rw [h]
  exact if_pos hwire

/-! ### The echo, by sender -/

theorem State.echoTo_slot {i : Nat} {sl : Slot} {o : SlotOwed} (hs : s.slotAt i = some sl) (ho : sl.owed = some o)
    (hwire : o.onWire = true) : s.echoTo (.slot i) = s.echoSlot i sl o.kind := by
  unfold State.echoTo
  dsimp only
  rw [State.standingSlot_eq_some hs ho hwire]

theorem State.echoTo_context {i : Nat} {k : Context} {o : ContextOwed} (hk : s.contextAt i = some k)
    (ho : k.owed = some o) (hwire : o.onWire = true) : s.echoTo (.context i) = s.echoContext i k o.kind := by
  unfold State.echoTo
  dsimp only
  rw [State.standingContext_eq_some hk ho hwire]

theorem State.echoTo_beacon {b : OwedBeacon} (hb : s.station.beacon = some b) (hwire : b.onWire = true) :
    s.echoTo .beacon = s.endBeacon b := by
  unfold State.echoTo
  dsimp only
  rw [State.standingBeacon_eq_some hb hwire]

theorem State.echoTo_reply {r : Reply} {rest : List Reply} (h : s.span.replies = r :: rest) (hwire : r.onWire = true) :
    s.echoTo .reply = s.setReplies rest := by
  unfold State.echoTo
  dsimp only
  rw [State.wireReply_eq_some h hwire]

theorem State.echoTo_fifo {c : Channel} {q : Seq} {payload : List Octet} {attempts : Nat} {purged : Bool}
    {rest : List FifoEntry} (h : s.store.fifo = .data c q payload attempts true purged :: rest) :
    s.echoTo .fifo = s.dropHeadData := by
  unfold State.echoTo
  dsimp only
  rw [h]

/-! ### The failure, by sender -/

theorem State.failTo_slot {i : Nat} {sl : Slot} {o : SlotOwed} (hs : s.slotAt i = some sl) (ho : sl.owed = some o)
    (hwire : o.onWire = true) : s.failTo (.slot i) = s.failSlot i sl o := by
  unfold State.failTo
  dsimp only
  rw [State.standingSlot_eq_some hs ho hwire]

theorem State.failTo_context {i : Nat} {k : Context} {o : ContextOwed} (hk : s.contextAt i = some k)
    (ho : k.owed = some o) (hwire : o.onWire = true) : s.failTo (.context i) = s.failContext i k o := by
  unfold State.failTo
  dsimp only
  rw [State.standingContext_eq_some hk ho hwire]

theorem State.failTo_beacon {b : OwedBeacon} (hb : s.station.beacon = some b) (hwire : b.onWire = true) :
    s.failTo .beacon = s.failBeacon b := by
  unfold State.failTo
  dsimp only
  rw [State.standingBeacon_eq_some hb hwire]

theorem State.failTo_reply {r : Reply} {rest : List Reply} (h : s.span.replies = r :: rest) (hwire : r.onWire = true) :
    s.failTo .reply = s.failReply r rest := by
  unfold State.failTo
  dsimp only
  rw [State.wireReply_eq_some h hwire]

/-- The effect of a failure on the FIFO's head DATA entry (R109, R110). -/
theorem State.failTo_fifo {c : Channel} {q : Seq} {payload : List Octet} {attempts : Nat} {purged : Bool}
    {rest : List FifoEntry} (h : s.store.fifo = .data c q payload attempts true purged :: rest) :
    s.failTo .fifo =
      if purged then s.dropHeadData
      else if s.attemptLimit ≤ attempts + 1 then s.countSendFailure.dropHeadData
      else s.setFifo (.data c q payload (attempts + 1) false false :: rest) := by
  unfold State.failTo State.failData
  dsimp only
  rw [h]

/-- A message that was overtaken meets no owner's rule (R142). -/
theorem State.overtaken_unmoved {sender : Sender}
    (h : (∃ i, sender = .slot i ∧ ∀ sl o, s.slotAt i = some sl → sl.owed = some o → o.onWire = false) ∨
      (∃ i, sender = .context i ∧ ∀ k o, s.contextAt i = some k → k.owed = some o → o.onWire = false) ∨
      (sender = .beacon ∧ ∀ b, s.station.beacon = some b → b.onWire = false)) :
    s.echoTo sender = s ∧ s.failTo sender = s := by
  unfold State.echoTo State.failTo
  rcases h with ⟨i, rfl, h⟩ | ⟨i, rfl, h⟩ | ⟨rfl, h⟩ <;> dsimp only
  · rw [State.standingSlot_eq_none h]
    exact ⟨rfl, rfl⟩
  · rw [State.standingContext_eq_none h]
    exact ⟨rfl, rfl⟩
  · rw [State.standingBeacon_eq_none h]
    exact ⟨rfl, rfl⟩

end

/-- Settles O32: what stands no more is not handed to its owner. -/
theorem overtakenAttemptChangesTheFailureCountAlone : Obligations.OvertakenAttemptChangesTheFailureCountAlone := by
  intro s a cause ha hovertaken
  have hunmoved := fun n => State.overtaken_unmoved (s := s.attemptEnded n) hovertaken
  refine ⟨(exec_echo ha).trans (congrArg _ (hunmoved 0).1), fun hf => ?_⟩
  exact (exec_failedAttempt_below ha hf cause).trans (congrArg _ (hunmoved _).2)

/-! ### The owners' rules -/

theorem State.nothingRemains_of_slot {s : State} {i : Nat} {sl : Slot} (hs : s.slotAt i = some sl) :
    s.nothingRemains = false := by
  unfold State.nothingRemains
  simp [State.slots_ne_nil hs]

/-- While a slot is there something remains, so a completion's test of R159 leaves the Station Controller alone. -/
theorem State.completeHeld_station_of_slot {s : State} {i : Nat} {sl : Slot} (hs : s.slotAt i = some sl)
    (tag : Option Octet) (e : Ending) : (s.completeHeld tag e).station = s.station := by
  have hslot : (s.completeHeld tag e).slotAt i = some sl := (State.slotAt_of_slots (by simp) i).trans hs
  have htested : WithdrawalTested s s := by
    unfold WithdrawalTested
    rw [if_neg (by simp [State.nothingRemains_of_slot hs])]
  have hheld := htested.completeHeld tag e
  unfold WithdrawalTested at hheld
  rwa [if_neg (by simp [State.nothingRemains_of_slot hslot])] at hheld

/-- The slot of a claim that is won: HELD, owing nothing, with transmit sequence 0 (R36). -/
def Slot.won (sl : Slot) : Slot :=
  { sl with phase := .held, owed := none, transmitSequence := some 0, tag := none }

/-- The claim won: slot and entry HELD, and the CLAIM completed (R36); what `State.winClaim` begins with. -/
def State.holdClaim (s : State) (i : Nat) (sl : Slot) : State :=
  ((s.putSlot i sl.won).setEntry sl.channel
    ((s.entry sl.channel).toLocal .heldLocal s.station.number i)).completeHeld sl.tag { result := .ok }

theorem State.winClaim_eq (s : State) (i : Nat) (sl : Slot) :
    s.winClaim i sl =
      if s.station.mode = .withdrawing then (s.holdClaim i sl).startRelease i sl.won none else s.holdClaim i sl := rfl

@[simp] theorem State.holdClaim_same (s : State) (i : Nat) (sl : Slot) :
    (s.holdClaim i sl).contexts = s.contexts ∧ (s.holdClaim i sl).peers = s.peers ∧
    (s.holdClaim i sl).classifier = s.classifier ∧ (s.holdClaim i sl).store = s.store ∧
    (s.holdClaim i sl).span = s.span ∧ (s.holdClaim i sl).pending = s.pending := by
  simp [State.holdClaim]

theorem State.holdClaim_spec (s : State) (i : Nat) (sl : Slot) :
    (s.holdClaim i sl).slotAt i = some sl.won ∧ OtherSlots i s (s.holdClaim i sl) ∧
      (s.holdClaim i sl).entry sl.channel = (s.entry sl.channel).toLocal .heldLocal s.station.number i ∧
      OtherEntries sl.channel s (s.holdClaim i sl) ∧ Ended sl.tag { result := .ok } s (s.holdClaim i sl) ∧
      ChangesOnly [.slots, .channels, .port, .events] s (s.holdClaim i sl) := by
  have hslots : (s.holdClaim i sl).slots = FMap.insert s.slots i sl.won := by simp [State.holdClaim]
  have hchannels : (s.holdClaim i sl).channels =
      (s.setEntry sl.channel ((s.entry sl.channel).toLocal .heldLocal s.station.number i)).channels := by
    simp [State.holdClaim]
  have hstation : (s.holdClaim i sl).station = s.station :=
    State.completeHeld_station_of_slot (i := i) (sl := sl.won) ((State.slotAt_of_insert rfl i).trans (if_pos rfl)) ..
  refine ⟨?_, fun j hj => ?_, ?_, fun d hd => ?_, ?_, fun p hp => ?_, by simp⟩
  · rw [State.slotAt_of_insert hslots, if_pos rfl]
  · rw [State.slotAt_of_insert hslots, if_neg hj]
  · rw [State.entry_of_channels hchannels, State.entry_setEntry_self]
  · rw [State.entry_of_channels hchannels, State.entry_setEntry_other _ _ hd]
  · exact (State.completeHeld_ended ..).of_same rfl rfl
  · cases p <;> simp_all [Part.same]

/-- A claim won in WITHDRAWING is released in the same step (R40). -/
theorem State.holdClaim_startRelease_spec (s : State) (i : Nat) (sl : Slot) (h : headMarkers s.store.fifo = []) :
    ((s.holdClaim i sl).startRelease i sl.won none).slotAt i =
        some (if s.store.fifo = [] then SnapshotOf s { sl.won with phase := .releasing }
          else { sl.won with phase := .releasing }) ∧
      OtherSlots i s ((s.holdClaim i sl).startRelease i sl.won none) ∧
      ((s.holdClaim i sl).startRelease i sl.won none).entry sl.channel =
        (s.entry sl.channel).toLocal .releasing s.station.number i ∧
      OtherEntries sl.channel s ((s.holdClaim i sl).startRelease i sl.won none) ∧
      ((s.holdClaim i sl).startRelease i sl.won none).store =
        { s.store with fifo := if s.store.fifo = [] then [] else s.store.fifo ++ [.marker sl.channel] } ∧
      Ended sl.tag { result := .ok } s ((s.holdClaim i sl).startRelease i sl.won none) ∧
      ChangesOnly [.slots, .channels, .store, .port, .events] s ((s.holdClaim i sl).startRelease i sl.won none) := by
  obtain ⟨-, hothers, hentry, hentries, hcompleted, honly⟩ := State.holdClaim_spec s i sl
  have hstation : (s.holdClaim i sl).station = s.station := honly.1 .station (by decide)
  have hstore : (s.holdClaim i sl).store = s.store := by simp
  generalize s.holdClaim i sl = u at *
  have hsnapshot : SnapshotOf u = SnapshotOf s := SnapshotOf_of_record (by unfold State.record; rw [hstation])
  rw [← hstore] at h
  obtain ⟨hat, hentry', hothers', hentries', honly'⟩ := State.startRelease_frame u i sl.won none h
  obtain ⟨-, -, hstore'⟩ := State.startRelease_spec u i sl.won none h
  have hchannel : sl.won.channel = sl.channel := rfl
  rw [hchannel] at hentry' hentries' hstore'
  refine ⟨?_, fun j hj => (hothers' j hj).trans (hothers j hj), ?_, fun d hd => (hentries' d hd).trans (hentries d hd),
    ?_, hcompleted.congr (by simp) (by simp), (honly.mono (by simp)).trans (honly'.mono (by simp))⟩
  · rw [hat, hstore, hsnapshot]
    rfl
  · rw [hentry', hentry, hstation]
    rfl
  · rw [hstore', hstore]

/-- A release has ended (R51, R52): its slot freed, its replies purged, the request it holds completed. -/
theorem State.endRelease_spec (s : State) (i : Nat) (sl : Slot) (unannounced : Bool) {t : State}
    (ht : t = s.endRelease i sl unannounced) :
    t.span = { s.span with replies := RepliesPurged sl.channel s.span.replies } ∧
      t.slotAt i = none ∧ OtherSlots i s t ∧ t.entry sl.channel = (s.entry sl.channel).toFree ∧
      OtherEntries sl.channel s t ∧
      Ended sl.tag
        (if sl.forced then { result := .forced, count := sl.laggards, unannounced := unannounced }
         else { result := .ok, unannounced := unannounced }) s t ∧
      WithdrawalTested s t ∧ ChangesOnly [.span, .slots, .channels, .port, .events, .station] s t := by
  obtain ⟨hat, hothers, hentry, hentries, htested⟩ := State.freeSlot_spec s i sl.channel none
  have hslots : t.slots = (s.freeSlot i sl.channel none).slots := by simp [ht, State.endRelease]
  have hchannels : t.channels = (s.freeSlot i sl.channel none).channels := by simp [ht, State.endRelease]
  have hspan : t.span = ((s.freeSlot i sl.channel none).purgeReplies sl.channel).span := by
    simp [ht, State.endRelease]
  refine ⟨?_, ?_, ?_, ?_, ?_, ?_, ?_, ?_⟩
  · have hfreed : (s.freeSlot i sl.channel none).span = s.span := by simp
    rw [hspan, ← hfreed]
    rfl
  · rw [State.slotAt_of_slots hslots, hat]
  · exact fun j hj => (State.slotAt_of_slots hslots j).trans (hothers j hj)
  · rw [State.entry_of_channels hchannels, hentry]
  · exact fun d hd => (State.entry_of_channels hchannels d).trans (hentries d hd)
  · rw [ht]
    exact (State.completeHeld_ended ..).of_same (by simp) (by simp)
  · rw [ht]
    exact (htested.congr (by simp) (by simp) (by simp) (by simp)).completeHeld ..
  · exact ⟨fun p hp => by cases p <;> simp_all [Part.same], by simp [ht]⟩

/-- The end of a withdrawal (R160, R161): WITHDRAW, the one pending request, completes, and the station is DETACHED. -/
theorem State.endWithdrawal_spec {s : State} {w : Octet} (hr : s.port.requests = [⟨w, .withdraw, none⟩]) {t : State}
    (ht : t = s.endWithdrawal) :
    t.span = { s.span with attempt := none, replies := [], rate := none } ∧
      t.station = { s.station with mode := .detached, presence := none, listen := none, beacon := none } ∧
      (∀ x, t.peerAt x = none) ∧
      (∀ c, t.entry c =
        if (s.entry c).view = .heldRemote then { s.entry c with view := .free, owner := none, slotIndex := none }
        else s.entry c) ∧
      t.port = { s.port with requests := [] } ∧
      t.events =
        { s.events with records := s.events.records ++ [.completion ⟨w, .withdraw, .ok, none, none, none, false⟩] } ∧
      ChangesOnly [.span, .station, .peers, .channels, .port, .events] s t := by
  obtain ⟨u, hu⟩ : ∃ u : State, u = s.completeHeld (some w) { result := .ok } := ⟨_, rfl⟩
  have hwithdraw : s.stationRequest .withdraw = some w := by simp [State.stationRequest, hr]
  have htu : t = u.enterDetached := by
    rw [ht, hu, ← hwithdraw]
    rfl
  have hfound : s.requestWith w = some ⟨w, .withdraw, none⟩ := by simp [State.requestWith, hr]
  obtain ⟨hport, hevents⟩ := State.complete_some (s := s) { result := .ok } hfound
  obtain ⟨hmode, hnumber, hepoch, hstartup, hpresence, hlisten, hreset⟩ :=
    StationController.of_settled (State.completeHeld_settled s (some w) { result := .ok })
  subst htu
  refine ⟨?_, ?_, fun x => rfl, fun c => ?_, ?_, ?_, fun p hp => ?_, by simp [hu]⟩
  · simp [State.enterDetached, hu]
  · rw [← hu] at hnumber hepoch hstartup hreset
    simp [State.enterDetached, hnumber, hepoch, hstartup, hreset]
  · rw [State.enterDetached_entry, State.entry_of_channels (s := s) (by simp [hu])]
  · refine (State.enterDetached_same u).2.2.2.2.1.trans (hu ▸ hport.trans ?_)
    simp [hr]
  · exact (State.enterDetached_same u).2.2.2.2.2.1.trans (hu ▸ hevents)
  · cases p <;> simp_all [Part.same]

/-- A JOIN or a LEAVE that has ended waits for its response (R69, R76). -/
theorem State.awaitResponse_spec {s : State} {r : StartupRecord} (hr : s.station.startup = some r) (i : Nat)
    (k : Context) :
    (s.awaitResponse i k).contextAt i =
        some { k with owed := none, attemptsUsed := k.attemptsUsed.map (· + 1),
                      responseTimer := some r.responseTimeout.toNat } ∧
      OtherContexts i s (s.awaitResponse i k) ∧ ChangesOnly [.contexts] s (s.awaitResponse i k) := by
  rw [← State.responseTimeout_loaded hr]
  exact State.putContext_spec ..

theorem State.endBeacon_ordinary {s : State} {b : OwedBeacon} (h : b.departing = false) :
    s.endBeacon b = s.setBeacon none :=
  if_neg (by simp [h])

theorem State.endBeacon_departing {s : State} {b : OwedBeacon} (h : b.departing = true) :
    s.endBeacon b = s.endWithdrawal :=
  if_pos h

/-! ### The echo -/

/-- Settles O29: the rule of each kind in the state in which the attempt has ended. -/
theorem echoOfASlotsMessageTakesItsOwnersRule : Obligations.EchoOfASlotsMessageTakesItsOwnersRule := by
  intro s a i sl o r ha hsender hs ho hwire hr
  have hexec := exec_echo ha
  have hended := s.attemptEnded_changesOnly 0
  rw [hsender, State.echoTo_slot (s := s.attemptEnded 0) hs ho hwire] at hexec
  refine ⟨fun hkind => ?_, fun hkind => ?_, fun hkind hphase hmode => ?_, fun hkind hphase hmode hhead => ?_,
    fun hkind => ?_⟩
  · have hrule : (s.attemptEnded 0).echoSlot i sl o.kind =
        (s.attemptEnded 0).putSlot i { sl with owed := none, window := some r.claimWindow.toNat } := by
      rw [hkind, ← State.record_loaded hr]
      rfl
    obtain ⟨hat, hothers, honly⟩ := State.putSlot_spec (s.attemptEnded 0) i
      { sl with owed := none, window := some r.claimWindow.toNat }
    exact ⟨_, hexec.trans (congrArg _ hrule), rfl, hat, hothers, hended.span_then honly⟩
  · have hrule : (s.attemptEnded 0).echoSlot i sl o.kind = (s.attemptEnded 0).putSlot i { sl with owed := none } := by
      rcases hkind with hkind | ⟨hkind, hphase⟩ <;> rw [hkind]
      · rfl
      · exact if_neg hphase
    obtain ⟨hat, hothers, honly⟩ := State.putSlot_spec (s.attemptEnded 0) i { sl with owed := none }
    exact ⟨_, hexec.trans (congrArg _ hrule), rfl, hat, hothers, hended.span_then honly⟩
  · have hrule : (s.attemptEnded 0).echoSlot i sl o.kind = (s.attemptEnded 0).holdClaim i sl := by
      rw [hkind]
      exact (if_pos hphase).trans ((State.winClaim_eq ..).trans (if_neg hmode))
    obtain ⟨hat, hothers, hentry, hentries, hcompleted, honly⟩ := State.holdClaim_spec (s.attemptEnded 0) i sl
    exact ⟨_, hexec.trans (congrArg _ hrule), honly.1 .span (by decide), hat, hothers, hentry, hentries, hcompleted,
      hended.span_then honly⟩
  · have hrule : (s.attemptEnded 0).echoSlot i sl o.kind =
        ((s.attemptEnded 0).holdClaim i sl).startRelease i sl.won none := by
      rw [hkind]
      exact (if_pos hphase).trans ((State.winClaim_eq ..).trans (if_pos hmode))
    obtain ⟨hat, hothers, hentry, hentries, hstore, hcompleted, honly⟩ :=
      State.holdClaim_startRelease_spec (s.attemptEnded 0) i sl hhead
    exact ⟨_, hexec.trans (congrArg _ hrule), honly.1 .span (by decide),
      hat, hothers, hentry, hentries, hstore, hcompleted,
      hended.span_then honly⟩
  · have hrule : (s.attemptEnded 0).echoSlot i sl o.kind = (s.attemptEnded 0).endRelease i sl false := by
      rw [hkind]
      rfl
    obtain ⟨hspan, hat, hothers, hentry, hentries, hcompleted, htested, honly⟩ :=
      State.endRelease_spec (s.attemptEnded 0) i sl false rfl
    exact ⟨_, hexec.trans (congrArg _ hrule), hspan, hat, hothers, hentry, hentries, hcompleted, htested,
      (hended.mono (by simp)).trans honly⟩

/-- Settles O30: a JOIN or a LEAVE waits for its response, a DRAINED is sent. -/
theorem echoOfAContextsMessageTakesItsOwnersRule : Obligations.EchoOfAContextsMessageTakesItsOwnersRule := by
  intro s a i k o r ha hsender hk ho hwire hr
  have hexec := exec_echo ha
  have hended := s.attemptEnded_changesOnly 0
  rw [hsender, State.echoTo_context (s := s.attemptEnded 0) hk ho hwire] at hexec
  cases hkind : o.kind with
  | drained =>
    rw [hkind] at hexec
    obtain ⟨hat, hothers, honly⟩ :=
      State.putContext_spec (s.attemptEnded 0) i { k with owed := none, drainedSent := true }
    exact ⟨_, hexec, rfl, by simp, fun _ => hat, hothers, hended.span_then honly⟩
  | join | leave =>
    rw [hkind] at hexec
    obtain ⟨hat, hothers, honly⟩ := State.awaitResponse_spec (s := s.attemptEnded 0) hr i k
    exact ⟨_, hexec, rfl, fun n _ hn => by rw [hn] at hat; exact hat, by simp, hothers, hended.span_then honly⟩

/-- Settles O31: the BEACON's end, the reply's departure, the DATA entry's departure. -/
theorem echoOfABeaconAReplyOrADataEntry : Obligations.EchoOfABeaconAReplyOrADataEntry := by
  intro s a ha
  have hexec := exec_echo ha
  have hended := s.attemptEnded_changesOnly 0
  refine ⟨fun b hsender hb hwire hdeparting => ?_, fun b w hsender hb hwire hdeparting hrequests => ?_,
    fun r rest hsender hreplies hwire => ?_, fun c q payload attempts purged rest hsender hfifo => ?_⟩
  all_goals rw [hsender] at hexec
  · rw [State.echoTo_beacon (s := s.attemptEnded 0) hb hwire, State.endBeacon_ordinary hdeparting] at hexec
    exact ⟨_, hexec, rfl, rfl, hended.span_then (State.setBeacon_changesOnly ..)⟩
  · rw [State.echoTo_beacon (s := s.attemptEnded 0) hb hwire, State.endBeacon_departing hdeparting] at hexec
    obtain ⟨hspan, hstation, hpeers, hentries, hport, hevents, honly⟩ :=
      State.endWithdrawal_spec (s := s.attemptEnded 0) hrequests rfl
    exact ⟨_, hexec, hspan, hstation, hpeers, hentries, hport, hevents, (hended.mono (by simp)).trans honly⟩
  · rw [State.echoTo_reply (s := s.attemptEnded 0) hreplies hwire] at hexec
    exact ⟨_, hexec, rfl, hended.trans (State.setReplies_changesOnly ..)⟩
  · rw [State.echoTo_fifo (s := s.attemptEnded 0) hfifo] at hexec
    obtain ⟨hstore, hsnapshots, hothers, honly⟩ := State.dropHeadData_spec (s := s.attemptEnded 0) hfifo
    exact ⟨_, hexec, honly.1 .span (by decide), hstore, hsnapshots, hothers, hended.span_then honly⟩

/-! ### The failure below the attempt limit -/

/-- Settles O33: the message of each sender stays owed, with one more attempt. -/
theorem failureBelowTheLimitKeepsTheMessage : Obligations.FailureBelowTheLimitKeepsTheMessage := by
  intro s a cause r ha hr hf
  have hexec := exec_failedAttempt_below ha hf cause
  have hended := s.attemptEnded_changesOnly (s.span.failures + 1)
  have hlimit : (s.attemptEnded (s.span.failures + 1)).attemptLimit = r.attemptLimit.toNat :=
    State.attemptLimit_loaded hr
  refine ⟨fun i sl o hsender hs ho hwire hbelow => ?_, fun i k o hsender hk ho hwire hbelow => ?_,
    fun b hsender hb hwire hbelow => ?_, fun reply rest hsender hreplies hwire hstands hkind hbelow => ?_,
    fun c q payload attempts rest hsender hfifo hbelow => ?_⟩
  all_goals
    rw [hsender] at hexec
    rw [← hlimit, ← Nat.not_le] at hbelow
  · rw [State.failTo_slot (s := s.attemptEnded _) hs ho hwire] at hexec
    obtain ⟨hat, hothers, honly⟩ := State.putSlot_spec (s.attemptEnded (s.span.failures + 1)) i
      { sl with owed := some ⟨o.kind, o.attempts + 1, false⟩ }
    exact ⟨_, hexec.trans (congrArg _ (if_neg hbelow)), rfl, hat, hothers, hended.span_then honly⟩
  · rw [State.failTo_context (s := s.attemptEnded _) hk ho hwire] at hexec
    obtain ⟨hat, hothers, honly⟩ := State.putContext_spec (s.attemptEnded (s.span.failures + 1)) i
      { k with owed := some ⟨o.kind, o.destination, o.attempts + 1, false⟩ }
    exact ⟨_, hexec.trans (congrArg _ (if_neg hbelow)), rfl, hat, hothers, hended.span_then honly⟩
  · rw [State.failTo_beacon (s := s.attemptEnded _) hb hwire] at hexec
    exact ⟨_, hexec.trans (congrArg _ (if_neg hbelow)), rfl, rfl, hended.span_then (State.setBeacon_changesOnly ..)⟩
  · rw [State.failTo_reply (s := s.attemptEnded _) hreplies hwire] at hexec
    have hkept : ¬(reply.overtaken = true ∨
        (s.attemptEnded (s.span.failures + 1)).replyLimit reply.kind ≤ reply.attempts + 1) := by
      unfold State.replyLimit
      rw [hstands, if_neg hkind]
      simpa using hbelow
    exact ⟨_, hexec.trans (congrArg _ (if_neg hkept)), rfl, hended.trans (State.setReplies_changesOnly ..)⟩
  · rw [State.failTo_fifo (s := s.attemptEnded _) hfifo, if_neg (by simp), if_neg hbelow] at hexec
    exact ⟨_, hexec, rfl, rfl, hended.span_then (State.setFifo_changesOnly ..)⟩

/-! ### The failure at the attempt limit -/

section
variable {s : State}

theorem State.failSlot_limit {o : SlotOwed} (h : s.attemptLimit ≤ o.attempts + 1) (i : Nat) (sl : Slot) :
    s.failSlot i sl o = s.abandonSlot i sl o.kind :=
  if_pos h

theorem State.failContext_limit {o : ContextOwed} (h : s.attemptLimit ≤ o.attempts + 1) (i : Nat) (k : Context) :
    s.failContext i k o = s.abandonContext i k o.kind :=
  if_pos h

theorem State.failBeacon_limit {b : OwedBeacon} (h : s.attemptLimit ≤ b.attempts + 1) :
    s.failBeacon b = s.endBeacon b :=
  if_pos h

/-- A reply leaves when it was overtaken, as a cleanup LEAVE, and at the attempt limit (R145, R146, R79). -/
theorem State.failReply_limit {r : Reply}
    (h : r.overtaken = true ∨ r.kind = .cleanupLeave ∨ s.attemptLimit ≤ r.attempts + 1) (rest : List Reply) :
    s.failReply r rest = s.setReplies rest := by
  refine if_pos ?_
  unfold State.replyLimit
  rcases h with h | h | h
  · exact .inl h
  · rw [if_pos h]
    exact .inr (by omega)
  · refine .inr ?_
    split
    · omega
    · exact h

/-- The DATA entry leaves with its buffer, counted as a send failure unless a purge had left it there (R109, R110). -/
theorem State.failTo_fifo_limit {c : Channel} {q : Seq} {payload : List Octet} {attempts : Nat} {purged : Bool}
    {rest : List FifoEntry} (hfifo : s.store.fifo = .data c q payload attempts true purged :: rest)
    (h : purged = true ∨ s.attemptLimit ≤ attempts + 1) {t : State} (ht : t = s.failTo .fifo) :
    t.store =
        { s.store with
          fifo := withoutHeadMarkers rest
          free := s.store.free + 1
          sendFailures :=
            if purged then s.store.sendFailures
            else if s.store.sendFailures = 65535 then 65535 else s.store.sendFailures + 1 } ∧
      (∀ i, Consumed (headMarkers rest) s i → t.slotAt i = (s.slotAt i).map (SnapshotOf s)) ∧
      (∀ i, ¬ Consumed (headMarkers rest) s i → t.slotAt i = s.slotAt i) ∧ ChangesOnly [.store, .slots] s t := by
  rw [State.failTo_fifo hfifo] at ht
  cases hpurged : purged with
  | true =>
    rw [if_pos hpurged] at ht
    subst ht
    exact State.dropHeadData_spec hfifo
  | false =>
    rw [if_neg (by simp [hpurged]), if_pos (h.resolve_left (by simp [hpurged]))] at ht
    subst ht
    obtain ⟨hstore, hsnapshots, hothers, honly⟩ := State.dropHeadData_spec (s := s.countSendFailure) hfifo
    have hcounted : ChangesOnly [.store, .slots] s s.countSendFailure :=
      ⟨fun p hp => by cases p <;> simp_all [Part.same], rfl⟩
    exact ⟨hstore, hsnapshots, hothers, hcounted.trans honly⟩

end

/-- Settles O34: the message of each sender is abandoned, and its owner's rule follows. -/
theorem failureAtTheLimitAbandonsTheMessage : Obligations.FailureAtTheLimitAbandonsTheMessage := by
  intro s a cause r ha hr hf
  have hexec := exec_failedAttempt_below ha hf cause
  have hended := s.attemptEnded_changesOnly (s.span.failures + 1)
  have hlimit : (s.attemptEnded (s.span.failures + 1)).attemptLimit = r.attemptLimit.toNat :=
    State.attemptLimit_loaded hr
  refine ⟨fun i sl o hsender hs ho hwire hlast => ?_, fun i k o hsender hk ho hwire hlast => ?_,
    fun b hsender hb hwire hdeparting hlast => ?_, fun b w hsender hb hwire hdeparting hlast hrequests => ?_,
    fun reply rest hsender hreplies hwire hlast => ?_, fun c q payload attempts purged rest hsender hfifo hlast => ?_⟩
  all_goals
    rw [hsender] at hexec
    rw [← hlimit] at hlast
  · rw [State.failTo_slot (s := s.attemptEnded _) hs ho hwire, State.failSlot_limit hlast] at hexec
    refine ⟨fun hkind => ?_, fun hkind => ?_, fun hkind => ?_⟩
    · have hrule : (s.attemptEnded (s.span.failures + 1)).abandonSlot i sl o.kind =
          (s.attemptEnded (s.span.failures + 1)).failClaim i sl := by
        rcases hkind with hkind | ⟨hkind, hphase⟩ <;> rw [hkind]
        · rfl
        · exact if_pos hphase
      obtain ⟨hat, hothers, hentry, hentries, hcompleted, htested, honly⟩ :=
        State.endClaim_spec (s.attemptEnded (s.span.failures + 1)) i sl.channel sl.tag { result := .sendFailed } rfl
      exact ⟨_, hexec.trans (congrArg _ hrule), honly.1 .span (by decide), hat, hothers, hentry, hentries, hcompleted, htested,
        hended.span_then honly⟩
    · have hrule : (s.attemptEnded (s.span.failures + 1)).abandonSlot i sl o.kind =
          (s.attemptEnded (s.span.failures + 1)).putSlot i { sl with owed := none } := by
        rcases hkind with hkind | ⟨hkind, hphase⟩ <;> rw [hkind]
        · rfl
        · exact if_neg hphase
      obtain ⟨hat, hothers, honly⟩ :=
        State.putSlot_spec (s.attemptEnded (s.span.failures + 1)) i { sl with owed := none }
      exact ⟨_, hexec.trans (congrArg _ hrule), rfl, hat, hothers, hended.span_then honly⟩
    · have hrule : (s.attemptEnded (s.span.failures + 1)).abandonSlot i sl o.kind =
          (s.attemptEnded (s.span.failures + 1)).endRelease i sl true := by
        rw [hkind]
        rfl
      obtain ⟨hspan, hat, hothers, hentry, hentries, hcompleted, htested, honly⟩ :=
        State.endRelease_spec (s.attemptEnded (s.span.failures + 1)) i sl true rfl
      exact ⟨_, hexec.trans (congrArg _ hrule), hspan, hat, hothers, hentry, hentries, hcompleted, htested,
        (hended.mono (by simp)).trans honly⟩
  · rw [State.failTo_context (s := s.attemptEnded _) hk ho hwire, State.failContext_limit hlast] at hexec
    cases hkind : o.kind with
    | drained =>
      rw [hkind] at hexec
      obtain ⟨hat, hothers, honly⟩ :=
        State.putContext_spec (s.attemptEnded (s.span.failures + 1)) i { k with owed := none }
      exact ⟨_, hexec, rfl, by simp, fun _ => hat, hothers, hended.span_then honly⟩
    | join | leave =>
      rw [hkind] at hexec
      obtain ⟨hat, hothers, honly⟩ :=
        State.awaitResponse_spec (s := s.attemptEnded (s.span.failures + 1)) hr i k
      exact ⟨_, hexec, rfl, fun n _ hn => by rw [hn] at hat; exact hat, by simp, hothers, hended.span_then honly⟩
  · rw [State.failTo_beacon (s := s.attemptEnded _) hb hwire, State.failBeacon_limit hlast,
      State.endBeacon_ordinary hdeparting] at hexec
    exact ⟨_, hexec, rfl, rfl, hended.span_then (State.setBeacon_changesOnly ..)⟩
  · rw [State.failTo_beacon (s := s.attemptEnded _) hb hwire, State.failBeacon_limit hlast,
      State.endBeacon_departing hdeparting] at hexec
    obtain ⟨hspan, hstation, hpeers, hentries, hport, hevents, honly⟩ :=
      State.endWithdrawal_spec (s := s.attemptEnded (s.span.failures + 1)) hrequests rfl
    exact ⟨_, hexec, hspan, hstation, hpeers, hentries, hport, hevents, (hended.mono (by simp)).trans honly⟩
  · rw [State.failTo_reply (s := s.attemptEnded _) hreplies hwire, State.failReply_limit hlast] at hexec
    exact ⟨_, hexec, rfl, hended.trans (State.setReplies_changesOnly ..)⟩
  · obtain ⟨hstore, hsnapshots, hothers, honly⟩ :=
      State.failTo_fifo_limit (s := s.attemptEnded (s.span.failures + 1)) hfifo hlast rfl
    exact ⟨_, hexec, honly.1 .span (by decide), hstore, hsnapshots, hothers, hended.span_then honly⟩

/-! ### The 32nd consecutive failure -/

section
variable {s : State}

/-- No owner's rule takes the station out of its mode or touches the Peer Table, but that of a departing BEACON
abandoned (R160, R161). -/
theorem State.failTo_settled {sender : Sender}
    (h : ∀ b, sender = .beacon → s.station.beacon = some b → b.onWire = true →
      b.departing = false ∨ b.attempts + 1 < s.attemptLimit) :
    (s.failTo sender).station.settled = s.station.settled ∧ (s.failTo sender).peers = s.peers := by
  unfold State.failTo
  cases sender with
  | reply => dsimp only; split <;> simp
  | slot i =>
    dsimp only
    split
    · refine ⟨?_, by simp⟩
      unfold State.failSlot State.abandonSlot State.failClaim State.endRelease
      (repeat' split) <;> simp
    · exact ⟨rfl, rfl⟩
  | context i => dsimp only; split <;> simp
  | beacon =>
    dsimp only
    split
    · rename_i b hb
      obtain ⟨b', hb', hstands⟩ := Option.bind_eq_some_iff.mp hb
      split at hstands
      · rename_i hwire
        obtain rfl := Option.some.inj hstands
        unfold State.failBeacon
        split
        · rename_i hlast
          rw [State.endBeacon_ordinary ((h b' rfl hb' hwire).resolve_right (Nat.not_lt.mpr hlast))]
          exact ⟨rfl, rfl⟩
        · exact ⟨rfl, rfl⟩
      · cases hstands
    · exact ⟨rfl, rfl⟩
  | fifo => simp

/-- No owner's rule begins an attempt. -/
theorem State.failTo_attempt (h : s.span.attempt = none) (sender : Sender) :
    (s.failTo sender).span.attempt = none := by
  unfold State.failTo
  cases sender with
  | reply =>
    dsimp only
    unfold State.failReply
    (repeat' split) <;> simp [h]
  | slot i =>
    dsimp only
    split
    · unfold State.failSlot State.abandonSlot State.endRelease
      (repeat' split) <;> simp [h, State.purgeReplies]
    · exact h
  | context i => dsimp only; split <;> simp [h]
  | beacon =>
    dsimp only
    unfold State.failBeacon State.endBeacon State.endWithdrawal
    (repeat' split) <;> simp [h, State.enterDetached]
  | fifo => simp [h]

/-- The failure that finds the count at 31 has its effect, and then the test of R141 is made. -/
theorem exec_failedAttempt_last {a : Attempt} (ha : s.span.attempt = some a) (hf : s.span.failures = 31)
    (cause : AttemptFailure) :
    exec (.failedAttempt cause) s = .next ((s.attemptEnded 32).failTo a.sender).muteOnFailures := by
  rw [exec_failedAttempt ha, hf]
  rfl

/-- The same failure with a lower count before it. -/
theorem exec_failedAttempt_first {a : Attempt} (ha : s.span.attempt = some a) (cause : AttemptFailure) :
    exec (.failedAttempt cause) { s with span := { s.span with failures := 0 } } =
      .next ((s.attemptEnded 1).failTo a.sender) :=
  exec_failedAttempt_below (s := s.setFailures 0) ha (by simp) cause

theorem State.muteOnFailures_transmitting (hf : s.span.failures = 32) (hon : s.transmitterOn = true) :
    s.muteOnFailures = s.enterMuted .spanFailures :=
  if_pos ⟨hf, hon⟩

theorem State.muteOnFailures_silent (hon : s.transmitterOn = false) : s.muteOnFailures = s :=
  if_neg (by simp [hon])

end

/-- Settles O35: the owner's rule does not read the count, so MUTED entry starts from the state it would leave. -/
theorem theThirtySecondFailureMutesTheStation : Obligations.TheThirtySecondFailureMutesTheStation := by
  intro s a cause r ha hr hf hon
  have hlast := exec_failedAttempt_last ha hf cause
  have hfirst := exec_failedAttempt_first ha cause
  have hrule : (s.attemptEnded 32).failTo a.sender = ((s.attemptEnded 1).failTo a.sender).setFailures 32 :=
    State.failTo_setFailures (s.attemptEnded 1) 32 a.sender
  have hlimit : (s.attemptEnded 1).attemptLimit = r.attemptLimit.toNat := State.attemptLimit_loaded hr
  rw [hrule] at hlast
  refine ⟨fun hstays => ?_, fun b w hsender hb hwire hdeparting hattempts hrequests => ?_⟩
  · obtain ⟨hsettled, hpeers⟩ := State.failTo_settled (s := s.attemptEnded 1) (sender := a.sender)
      (by rw [hlimit]; exact hstays)
    have hidle := State.failTo_attempt (s := s.attemptEnded 1) rfl a.sender
    generalize (s.attemptEnded 1).failTo a.sender = u at *
    have htransmits : (u.setFailures 32).transmitterOn = true := by
      unfold State.transmitterOn at hon ⊢
      rw [State.setFailures_station, (StationController.of_settled hsettled).1]
      exact hon
    rw [State.muteOnFailures_transmitting rfl htransmits] at hlast
    have hmuted := State.enterMuted_spec (u.setFailures 32) .spanFailures
    obtain ⟨hstation, hslots, hcontexts, -, hstore, hspan, hport, -, hpeers', -⟩ := id hmuted
    refine ⟨u, _, hfirst, hlast, hmuted, ?_, ?_, ?_, ?_, hslots, hcontexts, ?_, ?_, ?_, ?_, ?_, hpeers'.trans hpeers⟩
    · rw [hstation]
    · rw [hspan]; rfl
    · rw [hspan]; exact hidle
    · rw [hspan]
    · rw [hstore]
    · rw [hport]
    all_goals rw [hstation]
  · have habandoned : (s.attemptEnded 1).failTo a.sender = (s.attemptEnded 1).endWithdrawal := by
      rw [hsender, State.failTo_beacon (s := s.attemptEnded 1) hb hwire,
        State.failBeacon_limit (hlimit ▸ hattempts), State.endBeacon_departing hdeparting]
    obtain ⟨-, hstation, -, -, hport, hevents, -⟩ :=
      State.endWithdrawal_spec (s := s.attemptEnded 1) hrequests habandoned
    generalize (s.attemptEnded 1).failTo a.sender = u at *
    have hsilent : (u.setFailures 32).transmitterOn = false := by
      unfold State.transmitterOn
      rw [State.setFailures_station, hstation]
    rw [State.muteOnFailures_silent hsilent] at hlast
    refine ⟨u, _, hfirst, hlast, rfl, ?_, rfl, ?_, ?_⟩
    · rw [State.setFailures_station, hstation]
    · rw [State.setFailures_port, hport]
    · rw [State.setFailures_events, hevents]
      rfl

end Sys2Proof.Machine

/-! ## Every step keeps the capacities (O52) -/

namespace Sys2Proof.Machine

/-- The laws of the Event Queue, the Pending Request Table, the reply queue and the span, each where it is asked for. -/
structure Fits (ev rq rp sp : Prop) (s : State) : Prop where
  events : ev → EventLaw s
  requests : rq → RequestLaw s
  replies : rp → ReplyLaw s
  span : sp → SpanLaw s

/-- What the four laws speak of. -/
def State.load (s : State) :=
  (s.events.records, s.port.requests, s.span.replies, s.span.failures, s.store.fifo)

section
variable {ev rq rp sp : Prop} {s t : State}

/-! ### The moves that keep the laws -/

/-- Nothing that has a capacity grows, and the FIFO's head stays clear of markers. -/
theorem Fits.of_le (h : Fits ev rq rp sp s) (hevents : t.eventSum ≤ s.eventSum)
    (hrequests : t.port.requests.Sublist s.port.requests) (hreplies : t.span.replies.length ≤ s.span.replies.length)
    (hfailures : t.span.failures ≤ s.span.failures)
    (hfifo : headMarkers s.store.fifo = [] → headMarkers t.store.fifo = []) : Fits ev rq rp sp t where
  events hev := hevents.trans (h.events hev)
  requests hrq := by
    obtain ⟨hlength, htags, hnodup⟩ := h.requests hrq
    exact ⟨hrequests.length_le.trans hlength, fun r hr => htags r (hrequests.subset hr),
      hnodup.sublist (hrequests.map _)⟩
  replies hrp := hreplies.trans (h.replies hrp)
  span hsp := by
    obtain ⟨hcount, hhead⟩ := h.span hsp
    exact ⟨hfailures.trans hcount, hfifo hhead⟩

theorem Fits.of_load (h : Fits ev rq rp sp s) (hl : t.load = s.load) : Fits ev rq rp sp t := by
  simp only [State.load, Prod.mk.injEq] at hl
  obtain ⟨hrecords, hrequests, hreplies, hfailures, hfifo⟩ := hl
  refine h.of_le (le_of_eq ?_) (hrequests ▸ .refl _) (hreplies ▸ le_rfl) hfailures.le fun hhead => hfifo ▸ hhead
  rw [State.eventSum, State.eventSum, hrecords, hrequests]

/-- At most one record is stored, and nothing else. -/
theorem Fits.of_empty (hrecords : s.events.records.length ≤ 1) (hrequests : s.port.requests = [])
    (hreplies : s.span.replies = []) (hfailures : s.span.failures = 0) (hfifo : s.store.fifo = []) :
    Fits ev rq rp sp s where
  events _ := by
    rw [EventLaw, hrequests]
    exact hrecords.trans (by decide)
  requests _ := by simp [RequestLaw, hrequests]
  replies _ := by simp [ReplyLaw, hreplies]
  span _ := by simp [SpanLaw, hfailures, hfifo, headMarkers]

/-! ### The Event Queue and the Pending Request Table -/

theorem Fits.notify (h : Fits ev rq rp sp s) (n : Notification) : Fits ev rq rp sp (s.notify n) where
  events hev := State.notify_eventSum_le n (h.events hev)
  requests hrq := by simpa [RequestLaw] using h.requests hrq
  replies hrp := by simpa [ReplyLaw] using h.replies hrp
  span hsp := by simpa [SpanLaw] using h.span hsp

theorem Fits.testWithdrawal (h : Fits ev rq rp sp s) : Fits ev rq rp sp s.testWithdrawal :=
  h.of_load (by simp [State.load])

/-- A completion's record takes the place of its request (R180). -/
theorem Fits.complete (h : Fits ev rq rp sp s) (tag : Octet) (e : Ending) : Fits ev rq rp sp (s.complete tag e) := by
  unfold State.complete
  split
  · rename_i r hr
    obtain ⟨hmem, htag⟩ := State.requestWith_spec hr
    have herase := List.length_eraseP_of_mem (p := fun r => r.tag = tag) hmem (by simpa using htag)
    have hpos := List.length_pos_of_mem hmem
    refine Fits.testWithdrawal (h.of_le ?_ List.eraseP_sublist le_rfl le_rfl id)
    simp only [State.eventSum, List.length_append, List.length_singleton]
    omega
  · exact h

theorem Fits.completeHeld (h : Fits ev rq rp sp s) (tag : Option Octet) (e : Ending) :
    Fits ev rq rp sp (s.completeHeld tag e) := by
  unfold State.completeHeld
  split
  · exact h.complete ..
  · exact h

/-- A request that passes the common checks has a tag of its own and a place in both tables (R175, R176, R180). -/
theorem Fits.enterRequest (h : Fits ev rq rp sp s) {tag : Octet} {more : Checks}
    (hc : firstFailing (List.append (s.longChecks tag) more) = none) (kind : RequestKind) (c : Option Channel) :
    Fits ev rq rp sp (s.enterRequest tag kind c) := by
  have hcommon : ∀ x ∈ s.longChecks tag, x.1 = false :=
    fun x hx => firstFailing_eq_none hc x (List.mem_append_left more hx)
  simp only [State.longChecks, List.mem_cons, List.not_mem_nil, or_false, forall_eq_or_imp, forall_eq,
    decide_eq_false_iff_not, not_le] at hcommon
  obtain ⟨hzero, -, hplaces, hsum⟩ := hcommon
  have hfresh : ∀ r ∈ s.port.requests, r.tag ≠ tag := by
    simpa [State.requestWith] using requestWith_of_checks hc
  have hlength : (s.enterRequest tag kind c).port.requests.length = s.port.requests.length + 1 := List.length_append
  obtain ⟨hev, hrq, hrp, hsp⟩ := h
  refine ⟨fun _ => ?_, fun h => ?_, hrp, hsp⟩
  · have hrecords : (s.enterRequest tag kind c).events = s.events := rfl
    rw [EventLaw, hrecords, hlength]
    exact hsum
  · obtain ⟨-, htags, hnodup⟩ := hrq h
    refine ⟨hlength ▸ hplaces, fun r hr => ?_, nodup_concat hnodup hfresh⟩
    rcases List.mem_append.mp hr with hr | hr
    · exact htags r hr
    · rw [List.mem_singleton.mp hr]
      exact hzero

/-! ### Slots, contexts and peers -/

theorem Fits.setEntry (h : Fits ev rq rp sp s) (c : Channel) (e : ChannelEntry) : Fits ev rq rp sp (s.setEntry c e) :=
  h.of_load rfl

theorem Fits.putSlot (h : Fits ev rq rp sp s) (i : Nat) (sl : Slot) : Fits ev rq rp sp (s.putSlot i sl) :=
  h.of_load rfl

theorem Fits.putContext (h : Fits ev rq rp sp s) (i : Nat) (k : Context) : Fits ev rq rp sp (s.putContext i k) :=
  h.of_load rfl

theorem Fits.freeSlot (h : Fits ev rq rp sp s) (i : Nat) (c : Channel) (x : Option Station) :
    Fits ev rq rp sp (s.freeSlot i c x) := h.of_load (by simp [State.load])

theorem Fits.freeContext (h : Fits ev rq rp sp s) (i : Nat) (c : Channel) : Fits ev rq rp sp (s.freeContext i c) :=
  h.of_load (by simp [State.load])

theorem Fits.setPeers (h : Fits ev rq rp sp s) (peers : FMap Peer) : Fits ev rq rp sp { s with peers := peers } :=
  h.of_load rfl

theorem Fits.orphan (h : Fits ev rq rp sp s) (i : Nat) (k : Context) (reason : OrphanReason) (x : Station) :
    Fits ev rq rp sp (s.orphan i k reason x) := ((h.freeContext ..).notify _).completeHeld ..

theorem Fits.departContext (h : Fits ev rq rp sp s) (y : Station) (row : Nat × Context) :
    Fits ev rq rp sp (s.departContext y row) := by
  unfold State.departContext
  split
  · split
    · split
      · exact h.of_load rfl
      · exact h
    · exact h
  · split
    · exact h.orphan ..
    · exact h

theorem Fits.depart (h : Fits ev rq rp sp s) (y : Station) (reason : LostReason) (epoch : Octet) :
    Fits ev rq rp sp (s.depart y reason epoch) := by
  unfold State.depart
  exact List.foldlRecOn _ _ (Fits.of_load ((h.setPeers _).notify _) rfl) fun _ hs row _ => hs.departContext y row

theorem Fits.arrive (h : Fits ev rq rp sp s) (hd : Header) (body : Body) : Fits ev rq rp sp (s.arrive hd body) :=
  (h.setPeers _).notify _

theorem Fits.peerTakes (h : Fits ev rq rp sp s) (hd : Header) (body : Body) :
    Fits ev rq rp sp (s.peerTakes hd body) := by
  unfold State.peerTakes
  split
  · split
    · exact h
    · exact h.arrive ..
  · split
    · exact h.depart ..
    · split
      · exact h.of_load rfl
      · exact (h.depart ..).arrive ..

/-! ### The transmit FIFO and the reply queue -/

theorem Fits.setFifo (h : Fits ev rq rp sp s) {f : List FifoEntry}
    (hf : headMarkers s.store.fifo = [] → headMarkers f = []) : Fits ev rq rp sp (s.setFifo f) :=
  h.of_le le_rfl (.refl _) le_rfl le_rfl hf

/-- Consuming markers clears the FIFO's head, whatever stood there before. -/
theorem State.consumeMarkers_head (s : State) : headMarkers s.consumeMarkers.store.fifo = [] := by
  rw [State.consumeMarkers_store]
  exact headMarkers_withoutHeadMarkers _

/-- The FIFO was changed, and the markers left at its head are consumed. -/
theorem Fits.consumed (h : Fits ev rq rp sp s) (hrecords : t.events.records = s.events.records)
    (hrequests : t.port.requests = s.port.requests) (hreplies : t.span.replies.length ≤ s.span.replies.length)
    (hfailures : t.span.failures = s.span.failures) : Fits ev rq rp sp t.consumeMarkers := by
  refine h.of_le (le_of_eq ?_) ?_ ?_ ?_ fun _ => t.consumeMarkers_head
  · simp [State.eventSum, hrecords, hrequests]
  · simp [hrequests]
  · simpa using hreplies
  · simp [hfailures]

theorem Fits.startRelease (h : Fits ev rq rp sp s) (i : Nat) (sl : Slot) (tag : Option Octet) :
    Fits ev rq rp sp (s.startRelease i sl tag) := h.consumed rfl rfl le_rfl rfl

theorem Fits.dropHeadData (h : Fits ev rq rp sp s) : Fits ev rq rp sp s.dropHeadData := by
  unfold State.dropHeadData
  split
  · exact h.consumed rfl rfl le_rfl rfl
  · exact h

theorem Fits.setReplies (h : Fits ev rq rp sp s) {l : List Reply} (hl : l.length ≤ s.span.replies.length) :
    Fits ev rq rp sp (s.setReplies l) := h.of_le le_rfl (.refl _) hl le_rfl id

theorem Fits.purgeReplies (h : Fits ev rq rp sp s) (c : Channel) : Fits ev rq rp sp (s.purgeReplies c) :=
  h.setReplies (List.length_filterMap_le ..)

/-- A reply that finds the queue full is dropped (R144). -/
theorem Fits.addReply (h : Fits ev rq rp sp s) (kind : ReplyKind) (c : Channel) (x : Station) :
    Fits ev rq rp sp (s.addReply kind c x) := by
  unfold State.addReply
  split
  · exact h
  · split
    · exact h
    · split
      · rename_i hroom
        obtain ⟨hev, hrq, -, hsp⟩ := h
        refine ⟨hev, hrq, fun _ => ?_, hsp⟩
        rw [ReplyLaw, List.length_append]
        exact hroom
      · exact h.of_load rfl

theorem Fits.endRelease (h : Fits ev rq rp sp s) (i : Nat) (sl : Slot) (unannounced : Bool) :
    Fits ev rq rp sp (s.endRelease i sl unannounced) := ((h.freeSlot ..).purgeReplies _).completeHeld ..

/-- The purge of a lost channel can leave a marker at the FIFO's head, which is consumed before the step ends. -/
theorem Fits.loseChannel (h : Fits ev rq rp sp s) (i : Nat) (sl : Slot) (x : Station) :
    Fits ev rq rp sp (s.loseChannel i sl x) := by
  have hpurged : Fits ev rq rp sp
      (((s.freeSlot i sl.channel (some x)).purgeFifo sl.channel).purgeReplies sl.channel).consumeMarkers := by
    refine (h.freeSlot i sl.channel (some x)).consumed rfl rfl ?_ rfl
    exact List.length_filterMap_le ..
  unfold State.loseChannel
  dsimp only
  split
  · exact hpurged.completeHeld ..
  · exact (hpurged.notify _).completeHeld ..

/-! ### Receive queues -/

theorem Fits.offer (h : Fits ev rq rp sp s) (q : QueueName) (d : Descriptor) : Fits ev rq rp sp (s.offer q d) := by
  unfold State.offer
  dsimp only
  split
  · exact h.of_load (by cases q <;> rfl)
  · split
    · exact h.of_load (by cases q <;> rfl)
    · exact Fits.notify (h.of_load (by cases q <;> rfl)) _

theorem Fits.setQueue (h : Fits ev rq rp sp s) (q : QueueName) (r : ReceiveQueue) :
    Fits ev rq rp sp (s.setQueue q r) := h.of_load (by cases q <;> rfl)

theorem Fits.dequeued (h : Fits ev rq rp sp s) (d : Descriptor) : Fits ev rq rp sp (s.dequeued d) := by
  obtain ⟨hstore, -, -⟩ := s.dequeued_spec d
  exact h.of_load (by simp [State.load, hstore])

/-! ### The station as a whole -/

theorem Fits.enterDetached (h : Fits ev rq rp sp s) : Fits ev rq rp sp s.enterDetached :=
  h.of_le le_rfl (.refl _) (Nat.zero_le _) le_rfl id

/-- Every pending request gives its place to its completion (R162, R180). -/
theorem Fits.enterMuted (h : Fits ev rq rp sp s) (reason : MuteReason) : Fits ev rq rp sp (s.enterMuted reason) := by
  unfold State.enterMuted
  dsimp only
  apply Fits.notify
  refine h.of_le ?_ ?_ ?_ le_rfl ?_
  · simp [State.eventSum, (sortByKey_perm ..).length_eq]
  · exact List.nil_sublist _
  · exact Nat.zero_le _
  · exact fun _ => rfl

theorem Fits.duplicateNumber (h : Fits ev rq rp sp s) : Fits ev rq rp sp s.duplicateNumber := by
  have hcounted : Fits ev rq rp sp { s with span := { s.span with duplicates := countUp s.span.duplicates } } :=
    h.of_load rfl
  unfold State.duplicateNumber
  dsimp only
  split
  · exact (hcounted.completeHeld ..).enterDetached
  · exact hcounted.enterMuted _
  · exact hcounted.enterMuted _
  · exact hcounted
  · exact hcounted

theorem Fits.restarted (s : State) : Fits ev rq rp sp s.restarted := Fits.of_empty le_rfl rfl rfl rfl rfl

theorem Fits.afterReset (straps : Station) : Fits ev rq rp sp (State.afterReset straps) :=
  Fits.of_empty (Nat.zero_le _) rfl rfl rfl rfl

/-! ### Messages -/

theorem Fits.ownerChanges (h : Fits ev rq rp sp s) (c : Channel) (x : Station) :
    Fits ev rq rp sp (s.ownerChanges c x) := by
  unfold State.ownerChanges
  split
  · split
    · exact h.orphan ..
    · exact h
  · exact h

theorem Fits.yieldTo (h : Fits ev rq rp sp s) (i : Nat) (sl : Slot) (x : Station) :
    Fits ev rq rp sp (s.yieldTo i sl x) := (h.freeSlot ..).completeHeld ..

theorem Fits.ownerIndicated (h : Fits ev rq rp sp s) (c : Channel) (x : Station) :
    Fits ev rq rp sp (s.ownerIndicated c x) := by
  unfold State.ownerIndicated
  split
  · exact (h.setEntry ..).ownerChanges ..
  · exact (h.setEntry ..).ownerChanges ..
  · split
    · exact h.yieldTo ..
    · exact h
  all_goals
    split
    · split
      · exact h.loseChannel ..
      · exact h.of_load rfl
    · exact h

theorem Fits.channelTakes (h : Fits ev rq rp sp s) (hd : Header) (body : Body) :
    Fits ev rq rp sp (s.channelTakes hd body) := by
  unfold State.channelTakes
  split
  · exact h.ownerIndicated ..
  · split
    · exact h.of_load rfl
    · exact h

theorem Fits.takeClaim (h : Fits ev rq rp sp s) (hd : Header) : Fits ev rq rp sp (s.takeClaim hd) := by
  unfold State.takeClaim
  split
  · split
    · split
      · exact (h.freeSlot ..).completeHeld ..
      · exact h
    · exact h
  · exact h.addReply ..
  · exact h.addReply ..
  · exact h.addReply ..
  · exact h
  · exact h

theorem Fits.takeJoin (h : Fits ev rq rp sp s) (hd : Header) : Fits ev rq rp sp (s.takeJoin hd) := by
  unfold State.takeJoin
  split
  · exact h
  · split
    · split
      · exact (h.putSlot ..).addReply ..
      · exact h
    · exact h.addReply ..
    · exact h
    · exact h
    all_goals
      split
      · exact h.addReply ..
      · exact h

theorem Fits.takeLeave (h : Fits ev rq rp sp s) (hd : Header) : Fits ev rq rp sp (s.takeLeave hd) := by
  unfold State.takeLeave
  split
  · exact h
  · split
    case h_1 | h_2 =>
      split
      · exact (h.putSlot ..).addReply ..
      · exact h
    all_goals
      split
      · exact h.addReply ..
      · exact h

theorem Fits.takeDrained (h : Fits ev rq rp sp s) (hd : Header) : Fits ev rq rp sp (s.takeDrained hd) :=
  h.of_load (by unfold State.takeDrained; (repeat' split) <;> rfl)

theorem Fits.takeAdmit (h : Fits ev rq rp sp s) (hd : Header) (next : Seq) :
    Fits ev rq rp sp (s.takeAdmit hd next) := by
  unfold State.takeAdmit
  split
  · split
    · split
      · exact ((h.putContext ..).setEntry ..).completeHeld ..
      · exact h
    · split
      · exact h
      · exact h.addReply ..
  · exact h

theorem Fits.endJoin (h : Fits ev rq rp sp s) (i : Nat) (k : Context) (e : Ending) :
    Fits ev rq rp sp (s.endJoin i k e) := (h.freeContext ..).completeHeld ..

theorem Fits.takeDenyReleasing (h : Fits ev rq rp sp s) (hd : Header) :
    Fits ev rq rp sp (s.takeDenyReleasing hd) := by
  unfold State.takeDenyReleasing
  split
  · split
    · split
      · exact h.endJoin ..
      · exact h
    · exact h
  · exact h

theorem Fits.takeDenyNotOwner (h : Fits ev rq rp sp s) (hd : Header) :
    Fits ev rq rp sp (s.takeDenyNotOwner hd) := by
  unfold State.takeDenyNotOwner
  split
  · split
    · split
      · dsimp only
        split
        · exact (h.setEntry ..).endJoin ..
        · split
          · exact h.setEntry ..
          · exact (h.setEntry ..).putContext ..
      · exact h
    · exact h
  · exact h

theorem Fits.takeLeft (h : Fits ev rq rp sp s) (hd : Header) : Fits ev rq rp sp (s.takeLeft hd) := by
  unfold State.takeLeft
  split
  · split
    · split
      · exact (h.freeContext ..).completeHeld ..
      · exact h
    · exact h
  · exact h

theorem Fits.takeDrain (h : Fits ev rq rp sp s) (hd : Header) : Fits ev rq rp sp (s.takeDrain hd) :=
  h.of_load (by unfold State.takeDrain; (repeat' split) <;> rfl)

theorem Fits.takeRelease (h : Fits ev rq rp sp s) (hd : Header) : Fits ev rq rp sp (s.takeRelease hd) := by
  unfold State.takeRelease
  split
  · split
    · exact ((h.freeContext ..).notify _).completeHeld ..
    · exact h
  · exact h

theorem Fits.countStray (h : Fits ev rq rp sp s) : Fits ev rq rp sp s.countStray := h.of_load rfl

theorem Fits.routeCell (h : Fits ev rq rp sp s) (hd : Header) (n : Seq) (payload : List Octet)
    (missing : Option Nat) : Fits ev rq rp sp (s.routeCell hd n payload missing) := by
  unfold State.routeCell
  dsimp only
  split
  · exact h
  · split
    · exact h.offer ..
    · split
      · exact h.offer ..
      · split
        · exact h.offer ..
        · split
          · exact h.countStray
          · exact h

theorem Fits.classify (h : Fits ev rq rp sp s) (hd : Header) (n : Seq) (payload : List Octet) :
    Fits ev rq rp sp (s.classify hd n payload) := by
  unfold State.classify
  split
  · split
    · exact h.countStray
    · exact (h.putContext ..).routeCell ..
  · exact h.routeCell ..

theorem Fits.consume (h : Fits ev rq rp sp s) (hd : Header) (body : Body) :
    Fits ev rq rp sp (s.consume hd body) := by
  cases body with
  | claim => exact h.takeClaim hd
  | hold => exact h
  | announce => exact h
  | join => exact h.takeJoin hd
  | admission next => exact h.takeAdmit hd next
  | deny reason =>
    cases reason with
    | releasing => exact h.takeDenyReleasing hd
    | notOwner => exact h.takeDenyNotOwner hd
  | leave => exact h.takeLeave hd
  | left => exact h.takeLeft hd
  | drain => exact h.takeDrain hd
  | drained => exact h.takeDrained hd
  | release => exact h.takeRelease hd
  | data n payload => exact h.classify hd n payload
  | beacon => exact h

theorem Fits.hear (h : Fits ev rq rp sp s) (hd : Header) (body : Body) : Fits ev rq rp sp (s.hear hd body) := by
  have hpeers := h.peerTakes hd body
  by_cases hb : ∃ interval, body = .beacon interval
  · obtain ⟨interval, rfl⟩ := hb
    exact hpeers
  · rw [State.hear_eq (not_exists.mp hb)]
    exact (hpeers.channelTakes hd body).consume hd body

theorem Fits.receive (h : Fits ev rq rp sp s) (hd : Header) (body : Option Body) :
    Fits ev rq rp sp (s.receive hd body) := by
  unfold State.receive
  split
  · exact h
  · split
    · exact h.of_load rfl
    · split
      · exact h.of_load rfl
      · split
        · split
          · exact h
          · exact h.duplicateNumber
        · exact h.hear ..

/-! ### Transmissions -/

theorem length_markReplies (wire : Bool) (l : List Reply) : (markReplies wire l).length = l.length := by
  cases l <;> rfl

theorem headMarkers_markFifo (wire : Bool) (f : List FifoEntry) : headMarkers (markFifo wire f) = headMarkers f := by
  unfold markFifo
  split <;> rfl

theorem Fits.mark (h : Fits ev rq rp sp s) (sender : Sender) (wire : Bool) :
    Fits ev rq rp sp (s.mark sender wire) := by
  cases sender with
  | reply => exact h.setReplies (length_markReplies ..).le
  | slot i =>
    unfold State.mark
    dsimp only
    split
    · exact h.of_load rfl
    · exact h
  | context i =>
    unfold State.mark
    dsimp only
    split
    · exact h.of_load rfl
    · exact h
  | beacon => exact h.of_load rfl
  | fifo => exact h.setFifo (headMarkers_markFifo ..).trans

theorem Fits.setAttempt (h : Fits ev rq rp sp s) (a : Option Attempt) : Fits ev rq rp sp (s.setAttempt a) :=
  h.of_load rfl

theorem Fits.setFailures (h : Fits ev rq rp sp s) {n : Nat} (hn : n ≤ 32) : Fits ev rq rp sp (s.setFailures n) := by
  obtain ⟨hev, hrq, hrp, hsp⟩ := h
  exact ⟨hev, hrq, hrp, fun hspan => ⟨hn, (hsp hspan).2⟩⟩

/-- The head reply leaves when its attempt ends. -/
theorem State.wireReply_length {r : Reply} {rest : List Reply} (h : s.wireReply = some (r, rest)) :
    s.span.replies.length = rest.length + 1 := by
  unfold State.wireReply at h
  split at h
  · rename_i hreplies
    split at h <;> cases h
    rw [hreplies, List.length_cons]
  · cases h

theorem Fits.leaveReply (h : Fits ev rq rp sp s) {r : Reply} {rest : List Reply}
    (hr : s.wireReply = some (r, rest)) : Fits ev rq rp sp (s.setReplies rest) :=
  h.setReplies (State.wireReply_length hr ▸ Nat.le_succ _)

theorem Fits.loseContention (h : Fits ev rq rp sp s) (sender : Sender) :
    Fits ev rq rp sp (s.loseContention sender) := by
  unfold State.loseContention
  split
  · split
    · split
      · exact h.leaveReply ‹_›
      · exact h.mark ..
    · exact h
  · split
    · exact h.dropHeadData
    · exact h.mark ..
  all_goals exact h.mark ..

/-- A claim won while the station withdraws is released in the same step (R40). -/
theorem Fits.winClaim (h : Fits ev rq rp sp s) (i : Nat) (sl : Slot) : Fits ev rq rp sp (s.winClaim i sl) := by
  have hheld : Fits ev rq rp sp (s.holdClaim i sl) := ((h.putSlot ..).setEntry ..).completeHeld ..
  rw [State.winClaim_eq]
  split
  · exact hheld.startRelease ..
  · exact hheld

theorem Fits.echoSlot (h : Fits ev rq rp sp s) (i : Nat) (sl : Slot) (m : SlotMessage) :
    Fits ev rq rp sp (s.echoSlot i sl m) := by
  cases m with
  | claim => exact h.of_load rfl
  | announce =>
    unfold State.echoSlot
    dsimp only
    split
    · exact h.winClaim ..
    · exact h.of_load rfl
  | drain => exact h.of_load rfl
  | release => exact h.endRelease ..

theorem Fits.echoContext (h : Fits ev rq rp sp s) (i : Nat) (k : Context) (m : ContextMessage) :
    Fits ev rq rp sp (s.echoContext i k m) := h.of_load (by cases m <;> rfl)

theorem Fits.endBeacon (h : Fits ev rq rp sp s) (b : OwedBeacon) : Fits ev rq rp sp (s.endBeacon b) := by
  unfold State.endBeacon
  split
  · exact (h.completeHeld ..).enterDetached
  · exact h.of_load rfl

theorem Fits.echoTo (h : Fits ev rq rp sp s) (sender : Sender) : Fits ev rq rp sp (s.echoTo sender) := by
  unfold State.echoTo
  split
  · split
    · exact h.leaveReply ‹_›
    · exact h
  · split
    · exact h.echoSlot ..
    · exact h
  · split
    · exact h.echoContext ..
    · exact h
  · split
    · exact h.endBeacon _
    · exact h
  · split
    · exact h.dropHeadData
    · exact h

theorem Fits.failClaim (h : Fits ev rq rp sp s) (i : Nat) (sl : Slot) : Fits ev rq rp sp (s.failClaim i sl) :=
  (h.freeSlot ..).completeHeld ..

theorem Fits.abandonSlot (h : Fits ev rq rp sp s) (i : Nat) (sl : Slot) (m : SlotMessage) :
    Fits ev rq rp sp (s.abandonSlot i sl m) := by
  cases m with
  | claim => exact h.failClaim ..
  | announce =>
    unfold State.abandonSlot
    dsimp only
    split
    · exact h.failClaim ..
    · exact h.of_load rfl
  | drain => exact h.of_load rfl
  | release => exact h.endRelease ..

theorem Fits.failSlot (h : Fits ev rq rp sp s) (i : Nat) (sl : Slot) (o : SlotOwed) :
    Fits ev rq rp sp (s.failSlot i sl o) := by
  unfold State.failSlot
  split
  · exact h.abandonSlot ..
  · exact h.of_load rfl

theorem Fits.failContext (h : Fits ev rq rp sp s) (i : Nat) (k : Context) (o : ContextOwed) :
    Fits ev rq rp sp (s.failContext i k o) := by
  unfold State.failContext
  split
  · exact h.of_load (by cases o.kind <;> rfl)
  · exact h.of_load rfl

theorem Fits.failBeacon (h : Fits ev rq rp sp s) (b : OwedBeacon) : Fits ev rq rp sp (s.failBeacon b) := by
  unfold State.failBeacon
  split
  · exact h.endBeacon _
  · exact h.of_load rfl

theorem Fits.failReply (h : Fits ev rq rp sp s) {r : Reply} {rest : List Reply}
    (hr : s.wireReply = some (r, rest)) : Fits ev rq rp sp (s.failReply r rest) := by
  unfold State.failReply
  split
  · exact h.leaveReply hr
  · exact h.setReplies (State.wireReply_length hr).ge

theorem Fits.failData (h : Fits ev rq rp sp s) : Fits ev rq rp sp s.failData := by
  unfold State.failData
  split
  · split
    · exact h.dropHeadData
    · split
      · exact Fits.dropHeadData (h.of_load rfl)
      · exact h.setFifo fun _ => rfl
  · exact h

theorem Fits.failTo (h : Fits ev rq rp sp s) (sender : Sender) : Fits ev rq rp sp (s.failTo sender) := by
  unfold State.failTo
  split
  · split
    · exact h.failReply ‹_›
    · exact h
  · split
    · exact h.failSlot ..
    · exact h
  · split
    · exact h.failContext ..
    · exact h
  · split
    · exact h.failBeacon _
    · exact h
  · exact h.failData

theorem Fits.muteOnFailures (h : Fits ev rq rp sp s) : Fits ev rq rp sp s.muteOnFailures := by
  unfold State.muteOnFailures
  split
  · exact h.enterMuted _
  · exact h

/-! ### Timers -/

theorem Fits.retryJoin (h : Fits ev rq rp sp s) (i : Nat) (k : Context) : Fits ev rq rp sp (s.retryJoin i k) := by
  unfold State.retryJoin
  split
  · exact h.of_load rfl
  · exact (h.freeContext ..).completeHeld ..

theorem Fits.retryLeave (h : Fits ev rq rp sp s) (i : Nat) (k : Context) : Fits ev rq rp sp (s.retryLeave i k) := by
  unfold State.retryLeave
  split
  · exact h.of_load rfl
  · exact (h.freeContext ..).completeHeld ..

theorem Fits.implyRelease (h : Fits ev rq rp sp s) (i : Nat) (k : Context) :
    Fits ev rq rp sp (s.implyRelease i k) := ((h.setEntry ..).freeContext ..).notify _

theorem Fits.endListening (h : Fits ev rq rp sp s) : Fits ev rq rp sp s.endListening := by
  have hactive : Fits ev rq rp sp { s with station := { s.station with mode := .active, listen := none } } :=
    h.of_load rfl
  exact hactive.completeHeld ..

/-! ### Requests -/

theorem Fits.respond (h : Fits ev rq rp sp s) (r : Result) (data : List Octet) :
    Fits ev rq rp sp (s.respond r data) := h.of_load rfl

theorem Fits.acceptAttach (h : Fits ev rq rp sp s) {tag : Octet} (hc : firstFailing (s.attachChecks tag) = none) :
    Fits ev rq rp sp (s.acceptAttach tag) := by
  have hentered := h.enterRequest hc .attach none
  exact hentered.of_le le_rfl (.refl _) le_rfl (Nat.zero_le _) id

theorem Fits.abandon (h : Fits ev rq rp sp s) (a : Abandoned) : Fits ev rq rp sp (s.abandon a) := by
  cases a with
  | claim i sl => exact (h.freeSlot ..).completeHeld ..
  | join i k => exact (h.freeContext ..).completeHeld ..

theorem Fits.withdrawSlot (h : Fits ev rq rp sp s) (row : Nat × Slot) : Fits ev rq rp sp (s.withdrawSlot row) := by
  unfold State.withdrawSlot
  split
  · exact h.startRelease ..
  · exact h

theorem Fits.withdrawContext (h : Fits ev rq rp sp s) (row : Nat × Context) :
    Fits ev rq rp sp (s.withdrawContext row) := by
  unfold State.withdrawContext
  split
  · exact h.of_load rfl
  · exact h

theorem Fits.acceptWithdraw (h : Fits ev rq rp sp s) {tag : Octet}
    (hc : firstFailing (s.withdrawChecks tag) = none) : Fits ev rq rp sp (s.acceptWithdraw tag) := by
  have hentered : Fits ev rq rp sp
      (({ s with station := { s.station with mode := .withdrawing } } : State).enterRequest tag .withdraw none) :=
    Fits.of_load (h.enterRequest hc .withdraw none) rfl
  unfold State.acceptWithdraw
  dsimp only
  refine Fits.testWithdrawal (List.foldlRecOn _ _ ?_ fun _ hs row _ => hs.withdrawContext row)
  refine List.foldlRecOn _ _ ?_ fun _ hs row _ => hs.withdrawSlot row
  exact List.foldlRecOn _ _ hentered fun _ hs a _ => hs.abandon a

theorem Fits.acceptRelease (h : Fits ev rq rp sp s) {tag : Octet} {channel : Half}
    (hc : firstFailing (s.releaseChecks tag channel) = none) :
    Fits ev rq rp sp (s.acceptRelease tag (toChannel channel)) := by
  unfold State.acceptRelease
  split
  · rw [State.startRelease_enterRequest]
    exact (h.enterRequest hc ..).startRelease ..
  · exact h

theorem Fits.acceptLeave (h : Fits ev rq rp sp s) {tag : Octet} {channel : Half}
    (hc : firstFailing (s.leaveChecks tag channel) = none) :
    Fits ev rq rp sp (s.acceptLeave tag (toChannel channel)) := by
  unfold State.acceptLeave
  split
  · exact Fits.of_load (h.enterRequest hc .leave (some (toChannel channel))) rfl
  · exact h

theorem headMarkers_append_data {f : List FifoEntry} (h : headMarkers f = []) {e : FifoEntry} (he : e.isData = true) :
    headMarkers (f ++ [e]) = [] := by
  cases f with
  | nil =>
    cases e with
    | data => rfl
    | marker => cases he
  | cons x rest =>
    cases x with
    | data => rfl
    | marker => cases h

theorem Fits.acceptSend (h : Fits ev rq rp sp s) (c : Channel) (payload : List Octet) :
    Fits ev rq rp sp (s.acceptSend c payload) := by
  unfold State.acceptSend
  split
  · exact h.of_le le_rfl (.refl _) le_rfl le_rfl fun hhead => headMarkers_append_data hhead rfl
  · exact h

theorem Fits.abortClaim (h : Fits ev rq rp sp s) (tag : Octet) (c : Channel) :
    Fits ev rq rp sp (s.abortClaim tag c) := by
  unfold State.abortClaim
  split
  · split
    · exact ((h.freeSlot ..).complete ..).respond ..
    · exact h.respond ..
  · exact h.respond ..

theorem Fits.abortJoin (h : Fits ev rq rp sp s) (tag : Octet) (c : Channel) :
    Fits ev rq rp sp (s.abortJoin tag c) := by
  unfold State.abortJoin
  split
  · split
    · exact ((h.freeContext ..).complete ..).respond ..
    · exact h.respond ..
  · exact h.respond ..

/-! ### Commands -/

theorem Fits.of_next {u : State} (h : Fits ev rq rp sp u)
    (he : (.next u : Host.Outcome State Fault Refusal) = .next t) : Fits ev rq rp sp t := by
  cases he
  exact h

/-- The effect of a transaction of the local port, as exec answers it. -/
theorem Fits.of_transact (h : Fits ev rq rp sp s) {effect : State → State}
    (he : (.next (s.transact effect) : Host.Outcome State Fault Refusal) = .next t)
    (hk : Fits ev rq rp sp (effect s)) : Fits ev rq rp sp t := by
  refine Fits.of_next ?_ he
  unfold State.transact
  split
  · exact h
  · split
    · exact h.of_load rfl
    · exact hk

/-- A long request as its checks decide it: refused with no effect, or accepted. -/
theorem Fits.of_request (h : Fits ev rq rp sp s) {checks : State → Checks} {accept : State → State}
    (he : (.next (s.transact fun s =>
      match firstFailing (checks s) with
      | some r => s.respond r []
      | none => (accept s).respond .ok []) : Host.Outcome State Fault Refusal) = .next t)
    (hk : firstFailing (checks s) = none → Fits ev rq rp sp (accept s)) : Fits ev rq rp sp t := by
  refine h.of_transact he ?_
  split
  · exact h.respond ..
  · rename_i hc
    exact (hk hc).respond ..

theorem Fits.execLoadStartup (h : Fits ev rq rp sp s) {tag : Octet} {fields : StartupRecord}
    (he : execLoadStartup tag fields s = .next t) : Fits ev rq rp sp t :=
  h.of_transact he (h.of_load (by (repeat' split) <;> rfl))

theorem Fits.execSend (h : Fits ev rq rp sp s) {tag : Octet} {channel : Half} {length : Octet} {payload : List Octet}
    (he : execSend tag channel length payload s = .next t) : Fits ev rq rp sp t := by
  refine h.of_transact he ?_
  split
  · exact h.of_load rfl
  · split
    · exact h.respond ..
    · exact h.acceptSend ..

theorem Fits.execTake (h : Fits ev rq rp sp s) {tag queue : Octet} (he : execTake tag queue s = .next t) :
    Fits ev rq rp sp t := by
  refine h.of_transact he ?_
  split
  · exact h.respond ..
  · dsimp only
    split
    · exact h.respond ..
    · exact ((h.setQueue ..).dequeued _).respond ..

theorem Fits.execFlush (h : Fits ev rq rp sp s) {tag queue : Octet} (he : execFlush tag queue s = .next t) :
    Fits ev rq rp sp t := by
  refine h.of_transact he ?_
  split
  · exact h.respond ..
  · dsimp only
    split
    · exact h.respond ..
    · exact Fits.respond (List.foldlRecOn _ _ (h.setQueue ..) fun _ hs d _ => hs.dequeued d) ..

theorem Fits.execReadEvent (h : Fits ev rq rp sp s) {tag : Octet} (he : execReadEvent tag s = .next t) :
    Fits ev rq rp sp t := by
  refine h.of_transact he ?_
  split
  · exact h.respond ..
  · rename_i e rest hrecords
    refine h.of_le ?_ (.refl _) le_rfl le_rfl id
    rw [State.eventSum, State.eventSum, hrecords]
    exact Nat.add_le_add_right (Nat.le_succ _) _

theorem Fits.execAbort (h : Fits ev rq rp sp s) {tag : Octet} (he : execAbort tag s = .next t) :
    Fits ev rq rp sp t := by
  refine h.of_transact he ?_
  split
  · exact h.respond ..
  · split
    · exact h.abortClaim ..
    · exact h.abortJoin ..
    · exact ((h.complete ..).enterDetached).respond ..
    all_goals exact h.respond ..

theorem Fits.execPowerOnReset (h : Fits ev rq rp sp s) {edge : ResetEdge}
    (he : execPowerOnReset edge s = .next t) : Fits ev rq rp sp t := by
  refine Fits.of_next ?_ he
  split
  · exact (Fits.afterReset s.station.number).of_load rfl
  · rename_i straps selected
    split
    · exact (Fits.afterReset straps).of_load rfl
    · exact h

theorem Fits.execTransmitAttempt (h : Fits ev rq rp sp s) (he : execTransmitAttempt s = .next t) :
    Fits ev rq rp sp t := by
  refine Fits.of_next ?_ he
  split
  · split
    · exact (h.mark ..).setAttempt _
    · exact h
  · exact h

theorem Fits.execLostContention (h : Fits ev rq rp sp s) (he : execLostContention s = .next t) :
    Fits ev rq rp sp t := by
  refine Fits.of_next ?_ he
  split
  · exact (h.setAttempt none).loseContention _
  · exact h

theorem Fits.execEcho (h : Fits ev rq rp sp s) (he : execEcho s = .next t) : Fits ev rq rp sp t := by
  refine Fits.of_next ?_ he
  split
  · exact ((h.setAttempt none).setFailures (Nat.zero_le _)).echoTo _
  · exact h

theorem Fits.execFailedAttempt (h : Fits ev rq rp sp s) {cause : AttemptFailure}
    (he : execFailedAttempt cause s = .next t) : Fits ev rq rp sp t := by
  refine Fits.of_next ?_ he
  split
  · exact (((h.setAttempt none).setFailures (Nat.min_le_left ..)).failTo _).muteOnFailures
  · exact h

theorem Fits.execMalformedMessage (h : Fits ev rq rp sp s) {octets : List Octet}
    (he : execMalformedMessage octets s = .next t) : Fits ev rq rp sp t := by
  refine Fits.of_next ?_ he
  split
  · exact h.receive ..
  · split
    · exact h.of_load rfl
    · exact h

theorem Fits.execDuplicateNumberEvent (h : Fits ev rq rp sp s) (he : execDuplicateNumberEvent s = .next t) :
    Fits ev rq rp sp t := by
  refine Fits.of_next ?_ he
  split
  · exact h.duplicateNumber
  · exact h

/-- What happens on a condition, and nothing without it. -/
theorem Fits.only_if (h : Fits ev rq rp sp s) {p : Prop} [Decidable p] (ht : Fits ev rq rp sp t) :
    Fits ev rq rp sp (if p then t else s) := by
  split
  · exact ht
  · exact h

/-- Every command keeps the laws. -/
theorem Fits.exec (h : Fits ev rq rp sp s) {c : Instr} (he : exec c s = .next t) : Fits ev rq rp sp t := by
  cases c with
  | loadStartup tag fields => exact h.execLoadStartup (tag := tag) he
  | attach tag => exact h.of_request he h.acceptAttach
  | withdraw tag => exact h.of_request he h.acceptWithdraw
  | restart tag => exact h.of_transact he ((Fits.restarted s).respond ..)
  | readStation tag => exact h.of_transact he (h.respond ..)
  | claimRequest tag channel => exact h.of_request he fun hc => Fits.of_load (h.enterRequest hc .claim _) rfl
  | releaseRequest tag channel => exact h.of_request he h.acceptRelease
  | send tag channel length payload => exact h.execSend (tag := tag) he
  | joinRequest tag channel => exact h.of_request he fun hc => Fits.of_load (h.enterRequest hc .join _) rfl
  | leaveRequest tag channel => exact h.of_request he h.acceptLeave
  | setAction tag channel actions => exact h.of_transact he (h.of_load (by (repeat' split) <;> rfl))
  | readChannel tag channel => exact h.of_transact he (h.of_load (by split <;> rfl))
  | setFilter tag parameters => exact h.of_transact he (h.of_load (by split <;> rfl))
  | readFilter tag index => exact h.of_transact he (h.of_load (by split <;> rfl))
  | take tag queue => exact h.execTake (tag := tag) he
  | flush tag queue => exact h.execFlush (tag := tag) he
  | readPeer tag station => exact h.of_transact he (h.of_load (by split <;> rfl))
  | readEvent tag => exact h.execReadEvent (tag := tag) he
  | abort tag => exact h.execAbort he
  | badRequest code => exact h.of_transact he (h.of_load (by split <;> rfl))
  | incompleteRequest octets bits => exact h.of_transact he (h.of_load (by split <;> rfl))
  | powerOnReset edge => exact h.execPowerOnReset he
  | transmitAttempt => exact h.execTransmitAttempt he
  | lostContention => exact h.execLostContention he
  | echo => exact h.execEcho he
  | failedAttempt cause => exact h.execFailedAttempt (cause := cause) he
  | claimMessage header => exact (h.receive ..).of_next he
  | holdMessage header => exact (h.receive ..).of_next he
  | announceMessage header => exact (h.receive ..).of_next he
  | joinMessage header => exact (h.receive ..).of_next he
  | admitMessage header next => exact (h.receive ..).of_next he
  | denyMessage header reason => exact (h.receive ..).of_next he
  | leaveMessage header => exact (h.receive ..).of_next he
  | leftMessage header => exact (h.receive ..).of_next he
  | drainMessage header => exact (h.receive ..).of_next he
  | drainedMessage header => exact (h.receive ..).of_next he
  | releaseMessage header => exact (h.receive ..).of_next he
  | dataMessage header sequence length payload => exact (h.receive ..).of_next he
  | beaconMessage header interval => exact (h.receive ..).of_next he
  | malformedMessage octets => exact h.execMalformedMessage he
  | duplicateNumberEvent => exact h.execDuplicateNumberEvent he
  | claimWindowExpiry slot => exact Fits.of_next (h.of_load (by (repeat' split) <;> rfl)) he
  | resendTimerExpiry slot => exact Fits.of_next (h.of_load (by (repeat' split) <;> rfl)) he
  | drainTimerExpiry slot => exact Fits.of_next (h.of_load (by (repeat' split) <;> rfl)) he
  | joinResponseTimerExpiry context =>
    refine Fits.of_next ?_ he
    split
    · exact h.only_if (h.retryJoin ..)
    · exact h
  | leaveResponseTimerExpiry context =>
    refine Fits.of_next ?_ he
    split
    · exact h.only_if (h.retryLeave ..)
    · exact h
  | drainWaitTimerExpiry context =>
    refine Fits.of_next ?_ he
    split
    · exact h.only_if (h.implyRelease ..)
    · exact h
  | peerTimerExpiry station =>
    refine Fits.of_next ?_ he
    split
    · exact h.only_if (h.depart ..)
    · exact h
  | presenceTimerExpiry => exact Fits.of_next (h.of_load (by split <;> rfl)) he
  | listenTimerExpiry => exact (h.only_if h.endListening).of_next he

/-- Every step keeps the laws. -/
theorem Fits.step (h : Fits ev rq rp sp s) (he : step s = .next t) : Fits ev rq rp sp t := by
  unfold Machine.step at he
  split at he
  · have htick : Fits ev rq rp sp s.tick := h.of_load rfl
    exact htick.of_next he
  · rename_i c rest _
    have hfront : Fits ev rq rp sp ({ s with pending := rest } : State) := h.of_load rfl
    exact hfront.exec he

end

/-- Settles O52: each law is kept whether or not the others hold. -/
theorem everyStepKeepsTheCapacityLaws : Obligations.EveryStepKeepsTheCapacityLaws := by
  unfold Obligations.EveryStepKeepsTheCapacityLaws
  intro s t he
  have hbefore : Fits (EventLaw s) (RequestLaw s) (ReplyLaw s) (SpanLaw s) s := ⟨id, id, id, id⟩
  obtain ⟨hevents, hrequests, hreplies, hspan⟩ := hbefore.step he
  exact ⟨hevents, hrequests, hreplies, hspan⟩

end Sys2Proof.Machine

/-! ## The station's state and what it holds (O56)

`Steady q line s` is one invariant for both parts of O56: the tables in canonical form, the requests, and what the station
holds in agreement with its state, where `q` asks for them; and the level of RSTn, which no command but POWER_ON_RESET
changes. -/

namespace Sys2Proof.Machine

/-- The laws of tables, requests and station state where they are asked for, and the level of RSTn. -/
structure Steady (q : Prop) (line : Bool) (s : State) : Prop where
  tables : q → TableLaw s
  requests : q → RequestLaw s
  modes : q → ModeLaw s
  line : s.station.inReset = line

section
variable {q : Prop} {line : Bool} {s t : State}

/-! ### What the laws say -/

/-- What is owed as a departing BEACON is owed with nothing remaining (R159). -/
theorem ModeLaw.of_departing (h : ModeLaw s) (hd : s.departingOwed = true) :
    s.station.mode = .withdrawing ∧ s.slots = [] ∧ s.contexts = [] ∧ ∀ r ∈ s.port.requests, r.kind = .withdraw := by
  obtain ⟨-, -, -, hdeparting, -⟩ := h
  obtain ⟨hmode, hremains⟩ := hdeparting hd
  simpa [State.nothingRemains, hmode, and_assoc] using hremains

theorem State.nothingRemains_iff :
    s.nothingRemains = true ↔ s.slots = [] ∧ s.contexts = [] ∧ ∀ r ∈ s.port.requests, r.kind = .withdraw := by
  simp [State.nothingRemains, and_assoc]

/-- A station with a slot transmits (R150). -/
theorem ModeLaw.transmitterOn_of_slots (h : ModeLaw s) (hs : s.slots ≠ []) : s.transmitterOn = true := by
  obtain ⟨hidle, -⟩ := h
  by_contra hoff
  refine hs (hidle ?_ ?_).1 <;> intro hmode <;> simp [State.transmitterOn, hmode] at hoff

theorem ModeLaw.not_departing_of_slots (h : ModeLaw s) (hs : s.slots ≠ []) : s.departingOwed = false := by
  by_contra hd
  obtain ⟨-, hslots, -⟩ := h.of_departing (by simpa using hd)
  exact hs hslots

theorem ModeLaw.not_departing_of_contexts (h : ModeLaw s) (hs : s.contexts ≠ []) : s.departingOwed = false := by
  by_contra hd
  obtain ⟨-, -, hcontexts, -⟩ := h.of_departing (by simpa using hd)
  exact hs hcontexts

theorem ModeLaw.not_departing_of_mode (h : ModeLaw s) (hs : s.station.mode ≠ .withdrawing) :
    s.departingOwed = false := by
  by_contra hd
  exact hs (h.of_departing (by simpa using hd)).1

/-- Outside LISTENING and WITHDRAWING no station-kind request is pending (R175). -/
theorem ModeLaw.no_stationRequest (h : ModeLaw s) (hl : s.station.mode ≠ .listening)
    (hw : s.station.mode ≠ .withdrawing) : ∀ r ∈ s.port.requests, ¬ r.kind.ofStation := by
  obtain ⟨-, -, -, -, hattach, hwithdraw, -⟩ := h
  rintro r hr (hk | hk)
  · exact hl (hattach r hr hk)
  · exact hw (hwithdraw r hr hk)

/-- The station-kind requests among some requests. -/
def stationRequests (l : List PendingRequest) : Nat := l.countP (fun r => r.kind = .attach || r.kind = .withdraw)

theorem stationRequests_eq_zero {l : List PendingRequest} (h : ∀ r ∈ l, ¬ r.kind.ofStation) : stationRequests l = 0 := by
  refine List.countP_eq_zero.mpr fun r hr => ?_
  simpa [RequestKind.ofStation] using h r hr

/-- At most one station-kind request: two are the same (R175). -/
theorem eq_of_stationRequests {l : List PendingRequest} (h : stationRequests l ≤ 1) {a b : PendingRequest} (ha : a ∈ l)
    (hb : b ∈ l) (hka : a.kind.ofStation) (hkb : b.kind.ofStation) : a = b := by
  have hmem {r : PendingRequest} (hr : r ∈ l) (hk : r.kind.ofStation) :
      r ∈ l.filter (fun r => r.kind = .attach || r.kind = .withdraw) := by
    simpa [RequestKind.ofStation] using And.intro hr hk
  rw [stationRequests, List.countP_eq_length_filter] at h
  have ha := hmem ha hka
  have hb := hmem hb hkb
  obtain h | h := Nat.le_one_iff_eq_zero_or_eq_one.mp h
  · rw [List.length_eq_zero_iff.mp h] at ha
    cases ha
  · obtain ⟨x, hx⟩ := List.length_eq_one_iff.mp h
    rw [hx, List.mem_singleton] at ha hb
    rw [ha, hb]

/-- With its tag's request gone, no station-kind request is left. -/
theorem no_stationRequest_erased {l : List PendingRequest} (hn : (l.map (fun r => r.tag)).Nodup)
    (h : stationRequests l ≤ 1) {r : PendingRequest} (hr : r ∈ l) (hk : r.kind.ofStation) :
    ∀ x ∈ l.eraseP (fun p => p.tag = r.tag), ¬ x.kind.ofStation := by
  intro x hx hkx
  obtain ⟨hxl, htag⟩ := (mem_eraseP_tag hn).mp hx
  exact htag (congrArg _ (eq_of_stationRequests h hxl hr hkx hk))

/-- A completed station-kind request was the only one. -/
theorem State.completeHeld_stationRequest (hn : (s.port.requests.map (fun r => r.tag)).Nodup)
    (h : stationRequests s.port.requests ≤ 1) {kind : RequestKind} (hk : kind.ofStation) (e : Ending) :
    ∀ r ∈ (s.completeHeld (s.stationRequest kind) e).port.requests, r.kind ≠ kind := by
  cases hf : s.port.requests.find? (fun r => r.kind = kind) with
  | none =>
    have hnone : s.stationRequest kind = none := by rw [State.stationRequest, hf]; rfl
    rw [hnone]
    exact fun r hr => by simpa using List.find?_eq_none.mp hf r hr
  | some r =>
    have hsome : s.stationRequest kind = some r.tag := by rw [State.stationRequest, hf]; rfl
    have hmem := List.mem_of_find?_eq_some hf
    have hkind : r.kind = kind := by simpa using List.find?_some hf
    obtain ⟨x, hx⟩ : ∃ x, s.requestWith r.tag = some x :=
      Option.isSome_iff_exists.mp (List.find?_isSome.mpr ⟨r, hmem, by simp⟩)
    have hport : (s.completeHeld (some r.tag) e).port = _ := (State.complete_some e hx).1
    rw [hsome, hport]
    rintro y hy rfl
    exact no_stationRequest_erased hn h hmem (hkind ▸ hk) y hy hk

/-! ### The move that keeps the laws -/

/-- What a station must not hold in its state does not come to it: slots and contexts only in ACTIVE or where there are some,
FIFO entries only beside a slot, replies, attempts and BEACONs only while the transmitter is on. -/
theorem ModeLaw.of_move (h : ModeLaw s) (hmode : t.station.mode = s.station.mode)
    (hslots : s.station.mode = .active ∨ (s.slots = [] → t.slots = []))
    (hcontexts : s.station.mode = .active ∨ (s.contexts = [] → t.contexts = []))
    (hpeers : s.receiverOn = true ∨ (s.peers = [] → t.peers = []))
    (hreplies : s.transmitterOn = true ∨ (s.span.replies = [] → t.span.replies = []))
    (hattempt : s.transmitterOn = true ∨ (s.span.attempt = none → t.span.attempt = none))
    (hfifo : s.slots ≠ [] ∨ (s.store.fifo = [] → t.store.fifo = []))
    (hbeacon : s.transmitterOn = true ∨ (s.station.beacon = none → t.station.beacon = none))
    (hdeparting : t.departingOwed = true →
      s.departingOwed = true ∨ s.station.mode = .withdrawing ∧ t.nothingRemains = true)
    (hpresence : s.station.presence = none → t.station.presence = none)
    (hlisten : s.station.listen = none → t.station.listen = none)
    (hrequests : t.port.requests.Sublist s.port.requests) : ModeLaw t := by
  have hofDeparting (hd : s.departingOwed = true) := h.of_departing hd
  obtain ⟨hidle, hdetached, hmuted, -, hattach, hwithdraw, hone⟩ := h
  unfold ModeLaw
  rw [hmode]
  refine ⟨fun ha hw => ?_, fun hm => ?_, fun reason hm => ?_, fun hd => ?_, fun r hr => hattach r (hrequests.subset hr),
    fun r hr => hwithdraw r (hrequests.subset hr), (hrequests.countP_le).trans hone⟩
  · obtain ⟨hs, hc⟩ := hidle ha hw
    exact ⟨hslots.resolve_left ha hs, hcontexts.resolve_left ha hc⟩
  · have hoff : ¬ s.transmitterOn = true := by simp [State.transmitterOn, hm]
    have hdeaf : ¬ s.receiverOn = true := by simp [State.receiverOn, hm]
    obtain ⟨h1, h2, h3, h4, h5, h6⟩ := hdetached hm
    exact ⟨hpeers.resolve_left hdeaf h1, hreplies.resolve_left hoff h2, hattempt.resolve_left hoff h3,
      hbeacon.resolve_left hoff h4, hpresence h5, hlisten h6⟩
  · have hoff : ¬ s.transmitterOn = true := by simp [State.transmitterOn, hm]
    have hnone : s.slots = [] := (hidle (by simp [hm]) (by simp [hm])).1
    obtain ⟨h1, h2, h3, h4, h5⟩ := hmuted reason hm
    exact ⟨hreplies.resolve_left hoff h1, hfifo.resolve_left (not_not_intro hnone) h2, hbeacon.resolve_left hoff h3,
      hpresence h4, hlisten h5⟩
  · rcases hdeparting hd with hd | hd
    · obtain ⟨hw, hs, hc, hr⟩ := hofDeparting hd
      have hna : ¬ s.station.mode = .active := by simp [hw]
      exact ⟨hw, State.nothingRemains_iff.mpr ⟨hslots.resolve_left hna hs, hcontexts.resolve_left hna hc,
        fun r hrt => hr r (hrequests.subset hrt)⟩⟩
    · exact hd

theorem RequestLaw.of_sublist (h : RequestLaw s) (hrequests : t.port.requests.Sublist s.port.requests) :
    RequestLaw t := by
  obtain ⟨hlength, htags, hnodup⟩ := h
  exact ⟨hrequests.length_le.trans hlength, fun r hr => htags r (hrequests.subset hr),
    hnodup.sublist (hrequests.map _)⟩

theorem Steady.of_move (h : Steady q line s) (htables : TableLaw s → TableLaw t := by simp [TableLaw])
    (hmode : t.station.mode = s.station.mode := by simp)
    (hslots : s.station.mode = .active ∨ (s.slots = [] → t.slots = []) := by simp)
    (hcontexts : s.station.mode = .active ∨ (s.contexts = [] → t.contexts = []) := by simp)
    (hpeers : s.receiverOn = true ∨ (s.peers = [] → t.peers = []) := by simp)
    (hreplies : s.transmitterOn = true ∨ (s.span.replies = [] → t.span.replies = []) := by simp)
    (hattempt : s.transmitterOn = true ∨ (s.span.attempt = none → t.span.attempt = none) := by simp)
    (hfifo : s.slots ≠ [] ∨ (s.store.fifo = [] → t.store.fifo = []) := by simp)
    (hbeacon : s.transmitterOn = true ∨ (s.station.beacon = none → t.station.beacon = none) := by simp)
    (hdeparting : t.departingOwed = true →
      s.departingOwed = true ∨ s.station.mode = .withdrawing ∧ t.nothingRemains = true := by
        exact fun hd => .inl ((State.departingOwed_of_station (by simp)).symm.trans hd))
    (hpresence : s.station.presence = none → t.station.presence = none := by simp)
    (hlisten : s.station.listen = none → t.station.listen = none := by simp)
    (hrequests : t.port.requests.Sublist s.port.requests := by simp)
    (hline : t.station.inReset = s.station.inReset := by simp) : Steady q line t where
  tables hq := htables (h.tables hq)
  requests hq := (h.requests hq).of_sublist hrequests
  modes hq := (h.modes hq).of_move hmode hslots hcontexts hpeers hreplies hattempt hfifo hbeacon hdeparting hpresence
    hlisten hrequests
  line := hline.trans h.line

/-! ### Events and requests -/

theorem Steady.notify (h : Steady q line s) (n : Notification) : Steady q line (s.notify n) := h.of_move

/-- The test of R159 owes the departing BEACON where nothing remains. -/
theorem Steady.testWithdrawal (h : Steady q line s) : Steady q line s.testWithdrawal := by
  unfold State.testWithdrawal
  split
  · rename_i htest
    obtain ⟨hmode, hremains, -⟩ := htest
    exact h.of_move (hbeacon := .inl (by simp [State.transmitterOn, hmode])) (hdeparting := fun _ => .inr ⟨hmode, hremains⟩)
  · exact h

theorem Steady.complete (h : Steady q line s) (tag : Octet) (e : Ending) : Steady q line (s.complete tag e) := by
  unfold State.complete
  split
  · refine Steady.testWithdrawal (h.of_move (hrequests := List.eraseP_sublist))
  · exact h

theorem Steady.completeHeld (h : Steady q line s) (tag : Option Octet) (e : Ending) :
    Steady q line (s.completeHeld tag e) := by
  unfold State.completeHeld
  split
  · exact h.complete ..
  · exact h

theorem State.completeHeld_requests_sublist (s : State) (tag : Option Octet) (e : Ending) :
    (s.completeHeld tag e).port.requests.Sublist s.port.requests := by
  have hended := s.completeHeld_ended tag e
  unfold Ended at hended
  split at hended
  · rw [hended.1]
  · rw [hended.1]
    exact List.eraseP_sublist

/-! ### Slots, entries and contexts -/

theorem State.contexts_ne_nil_of_contextAt {i : Nat} {k : Context} (hs : s.contextAt i = some k) : s.contexts ≠ [] := by
  intro hnil
  simp [State.contextAt, hnil] at hs

theorem Steady.setEntry (h : Steady q line s) (c : Channel) (e : ChannelEntry) : Steady q line (s.setEntry c e) :=
  h.of_move (htables := fun ⟨h1, h2, h3, h4, h5⟩ => ⟨h1, h2, h3, wf_putEntry h4 c.isLt e, h5⟩)

theorem Steady.setSlots (h : Steady q line s) {m : FMap Slot} (hwf : TableLaw s → FMap.wf 32 m = true)
    (hm : s.station.mode = .active ∨ (s.slots = [] → m = [])) : Steady q line { s with slots := m } :=
  h.of_move (htables := fun htables => by
    obtain ⟨-, h2, h3, h4, h5⟩ := id htables
    exact ⟨hwf htables, h2, h3, h4, h5⟩) (hslots := hm)

theorem Steady.setContexts (h : Steady q line s) {m : FMap Context} (hwf : TableLaw s → FMap.wf 64 m = true)
    (hm : s.station.mode = .active ∨ (s.contexts = [] → m = [])) : Steady q line { s with contexts := m } :=
  h.of_move (htables := fun htables => by
    obtain ⟨h1, -, h3, h4, h5⟩ := id htables
    exact ⟨h1, hwf htables, h3, h4, h5⟩) (hcontexts := hm)

/-- A slot written where one is. -/
theorem Steady.putSlot (h : Steady q line s) {i : Nat} {x : Slot} (hs : s.slotAt i = some x) (sl : Slot) :
    Steady q line (s.putSlot i sl) :=
  h.setSlots (fun ht => FMap.wf_insert ht.wf_slots (FMap.lt_of_find? ht.wf_slots hs) sl)
    (.inr fun hnil => absurd hnil (State.slots_ne_nil hs))

theorem Steady.putContext (h : Steady q line s) {i : Nat} {x : Context} (hs : s.contextAt i = some x) (k : Context) :
    Steady q line (s.putContext i k) :=
  h.setContexts (fun ht => FMap.wf_insert ht.wf_contexts (FMap.lt_of_find? ht.wf_contexts hs) k)
    (.inr fun hnil => absurd hnil (State.contexts_ne_nil_of_contextAt hs))

theorem State.slotAt_of_slotOf {c : Channel} {i : Nat} {sl : Slot} (h : s.slotOf c = some (i, sl)) :
    s.slotAt i = some sl := (State.slotOf_eq_some.mp h).2

theorem State.contextAt_of_contextOf {c : Channel} {i : Nat} {k : Context} (h : s.contextOf c = some (i, k)) :
    s.contextAt i = some k := (State.contextOf_eq_some.mp h).2

theorem Steady.freeSlot (h : Steady q line s) (i : Nat) (c : Channel) (x : Option Station) :
    Steady q line (s.freeSlot i c x) :=
  Steady.testWithdrawal <| (h.setEntry c _).setSlots (fun ht => FMap.wf_erase ht.wf_slots i)
    (.inr fun hnil => congrArg (FMap.erase · i) hnil)

theorem Steady.freeContext (h : Steady q line s) (i : Nat) (c : Channel) : Steady q line (s.freeContext i c) :=
  Steady.testWithdrawal <| (h.setEntry c _).setContexts (fun ht => FMap.wf_erase ht.wf_contexts i)
    (.inr fun hnil => congrArg (FMap.erase · i) hnil)

theorem Steady.orphan (h : Steady q line s) (i : Nat) (k : Context) (reason : OrphanReason) (x : Station) :
    Steady q line (s.orphan i k reason x) := ((h.freeContext ..).notify _).completeHeld ..

theorem Steady.startLeave (h : Steady q line s) {i : Nat} {x : Context} (hs : s.contextAt i = some x) (k : Context)
    (tag : Option Octet) : Steady q line (s.startLeave i k tag) := (h.putContext hs _).setEntry ..

/-! ### The transmit FIFO and the reply queue -/

/-- The FIFO grows only beside a slot. -/
theorem Steady.setFifo (h : Steady q line s) {f : List FifoEntry} (hf : s.slots ≠ [] ∨ (s.store.fifo = [] → f = [])) :
    Steady q line (s.setFifo f) := h.of_move (hfifo := hf)

theorem Steady.takeSnapshot (h : Steady q line s) (c : Channel) : Steady q line (s.takeSnapshot c) := by
  unfold State.takeSnapshot
  split
  · exact h.putSlot (State.slotAt_of_slotOf ‹_›) _
  · exact h

theorem Steady.consumeMarkers (h : Steady q line s) : Steady q line s.consumeMarkers := by
  unfold State.consumeMarkers
  refine List.foldlRecOn _ _ (h.setFifo (.inr fun hnil => ?_)) fun _ hs c _ => hs.takeSnapshot c
  rw [hnil]
  rfl

theorem Steady.startRelease (h : Steady q line s) {i : Nat} {x : Slot} (hs : s.slotAt i = some x) (sl : Slot)
    (tag : Option Octet) : Steady q line (s.startRelease i sl tag) := by
  have hreleasing := (h.putSlot hs { sl with phase := .releasing, tag := tag }).setEntry sl.channel
    ((s.entry sl.channel).toLocal .releasing s.station.number i)
  exact (hreleasing.setFifo (.inl (FMap.insert_ne_nil _ _ _))).consumeMarkers

theorem Steady.freeBuffers (h : Steady q line s) (n : Nat) : Steady q line (s.freeBuffers n) := h.of_move

theorem Steady.dropHeadData (h : Steady q line s) : Steady q line s.dropHeadData := by
  unfold State.dropHeadData
  split
  · rename_i hfifo
    exact ((h.setFifo (.inr fun hnil => by simp [hnil] at hfifo)).freeBuffers 1).consumeMarkers
  · exact h

theorem Steady.purgeFifo (h : Steady q line s) (c : Channel) : Steady q line (s.purgeFifo c) :=
  (h.setFifo (.inr fun hnil => by rw [hnil]; rfl)).freeBuffers _

theorem Steady.setReplies (h : Steady q line s) {l : List Reply} (hl : s.span.replies = [] → l = []) :
    Steady q line (s.setReplies l) := h.of_move (hreplies := .inr hl)

theorem Steady.purgeReplies (h : Steady q line s) (c : Channel) : Steady q line (s.purgeReplies c) :=
  h.setReplies fun hnil => by rw [hnil]; rfl

theorem Steady.addReply (h : Steady q line s) (kind : ReplyKind) (c : Channel) (x : Station) :
    Steady q line (s.addReply kind c x) := by
  unfold State.addReply
  split
  · exact h
  · rename_i hon
    split
    · exact h
    · split
      · exact h.of_move (hreplies := .inl (by simpa using hon))
      · exact h.of_move

theorem Steady.endRelease (h : Steady q line s) (i : Nat) (sl : Slot) (unannounced : Bool) :
    Steady q line (s.endRelease i sl unannounced) := ((h.freeSlot ..).purgeReplies _).completeHeld ..

theorem Steady.loseChannel (h : Steady q line s) (i : Nat) (sl : Slot) (x : Station) :
    Steady q line (s.loseChannel i sl x) := by
  have hpurged := (((h.freeSlot i sl.channel (some x)).purgeFifo sl.channel).purgeReplies sl.channel).consumeMarkers
  unfold State.loseChannel
  dsimp only
  split
  · exact hpurged.completeHeld ..
  · exact (hpurged.notify _).completeHeld ..

/-! ### Receive queues -/

theorem Steady.setQueue (h : Steady q line s) (n : QueueName) (r : ReceiveQueue) : Steady q line (s.setQueue n r) :=
  h.of_move

theorem Steady.offer (h : Steady q line s) (n : QueueName) (d : Descriptor) : Steady q line (s.offer n d) := by
  unfold State.offer
  dsimp only
  split
  · exact Steady.setEntry (Steady.of_move h) ..
  · split
    · exact h.setQueue ..
    · exact (h.setQueue ..).notify _

theorem Steady.dequeued (h : Steady q line s) (d : Descriptor) : Steady q line (s.dequeued d) := by
  have hcounted := (h.freeBuffers 1).setEntry d.channel
    { s.entry d.channel with queued := (s.entry d.channel).queued - 1 }
  unfold State.dequeued
  dsimp only
  split
  · split
    · exact hcounted.putContext (State.contextAt_of_contextOf ‹_›) _
    · exact hcounted
  · exact hcounted

/-! ### Peers -/

theorem Steady.setPeers (h : Steady q line s) {m : FMap Peer} (hwf : TableLaw s → FMap.wf 64 m = true)
    (hm : s.receiverOn = true ∨ (s.peers = [] → m = [])) : Steady q line { s with peers := m } :=
  h.of_move (htables := fun htables => by
    obtain ⟨h1, h2, -, h4, h5⟩ := id htables
    exact ⟨h1, h2, hwf htables, h4, h5⟩) (hpeers := hm)

theorem Steady.mapEntries (h : Steady q line s) (f : ChannelEntry → ChannelEntry) :
    Steady q line { s with channels := Machine.mapEntries f s.channels } :=
  h.of_move (htables := fun ⟨h1, h2, h3, h4, h5⟩ => ⟨h1, h2, h3, wf_mapEntries f h4, h5⟩)

theorem Steady.mapSlots (h : Steady q line s) (f : Slot → Slot) :
    Steady q line { s with slots := FMap.mapValues f s.slots } :=
  h.setSlots (fun ht => FMap.wf_mapValues ht.wf_slots f) (.inr fun hnil => by rw [hnil]; rfl)

theorem Steady.mapContexts (h : Steady q line s) (f : Context → Context) :
    Steady q line { s with contexts := FMap.mapValues f s.contexts } :=
  h.setContexts (fun ht => FMap.wf_mapValues ht.wf_contexts f) (.inr fun hnil => by rw [hnil]; rfl)

theorem Steady.departContext (h : Steady q line s) {y : Station} {row : Nat × Context}
    (hs : s.contextAt row.1 = some row.2) : Steady q line (s.departContext y row) := by
  unfold State.departContext
  split
  · split
    · split
      · exact h.putContext hs _
      · exact h
    · exact h
  · split
    · exact h.orphan ..
    · exact h

/-- A departure as far as the contexts, which then depart one by one (R81). -/
def State.departed (s : State) (y : Station) (reason : LostReason) (epoch : Octet) : State :=
  let s₁ := ({ s with peers := FMap.erase s.peers y.toNat } : State).notify (.peerLost y reason epoch)
  { s₁ with channels := mapEntries (ChannelEntry.departed y) s₁.channels,
            slots := FMap.mapValues (Slot.forget y) s₁.slots }

theorem State.depart_eq (s : State) (y : Station) (reason : LostReason) (epoch : Octet) :
    s.depart y reason epoch =
      (s.departed y reason epoch).subscribedChannels.foldl (State.departContext y) (s.departed y reason epoch) := rfl

theorem Steady.departed (h : Steady q line s) (y : Station) (reason : LostReason) (epoch : Octet) :
    Steady q line (s.departed y reason epoch) := by
  have hlost := (h.setPeers (m := FMap.erase s.peers y.toNat) (fun ht => FMap.wf_erase ht.wf_peers _)
    (.inr fun hnil => congrArg (FMap.erase · y.toNat) hnil)).notify (.peerLost y reason epoch)
  exact (hlost.mapEntries (ChannelEntry.departed y)).mapSlots (Slot.forget y)

/-- The contexts depart one by one, each still in the table when its turn comes. -/
theorem Steady.depart (h : Steady q line s) (y : Station) (reason : LostReason) (epoch : Octet) :
    Steady q line (s.depart y reason epoch) := by
  have hline : (s.depart y reason epoch).station.inReset = line := by
    obtain ⟨-, -, -, -, -, -, hreset⟩ := StationController.of_settled (State.depart_settled s y reason epoch)
    exact hreset.trans h.line
  have hstart := h.departed y reason epoch
  have hlawful (hq : q) : Steady q line (s.depart y reason epoch) := by
    rw [State.depart_eq]
    generalize s.departed y reason epoch = u at hstart ⊢
    have hperm : u.subscribedChannels.Perm u.contexts := sortByKey_perm ..
    have hwf := (hstart.tables hq).wf_contexts
    refine foldl_keeps (P := Steady q line) (Q := fun s row => s.contextAt row.1 = some row.2)
      (R := fun a b => a.1 ≠ b.1) (fun s row hs hrow => hs.departContext hrow) (fun s a b _ ha hab hb => ?_)
      ((hperm.pairwise_iff fun hab => hab.symm).mpr (FMap.rows_pairwise hwf)) hstart
      fun row hr => FMap.find?_of_mem hwf (hperm.mem_iff.mp hr)
    rw [State.departContext_contexts y s a.1 a.2 ha, if_neg (Ne.symm hab)]
    exact hb
  exact ⟨fun hq => (hlawful hq).tables hq, fun hq => (hlawful hq).requests hq, fun hq => (hlawful hq).modes hq, hline⟩

theorem State.depart_receiverOn (s : State) (y : Station) (reason : LostReason) (epoch : Octet) :
    (s.depart y reason epoch).receiverOn = s.receiverOn := by
  obtain ⟨hmode, -⟩ := StationController.of_settled (State.depart_settled s y reason epoch)
  rw [State.receiverOn, hmode, State.receiverOn]

theorem Steady.insertPeer (h : Steady q line s) (hon : s.receiverOn = true) (x : Station) (p : Peer) :
    Steady q line { s with peers := FMap.insert s.peers x.toNat p } :=
  h.setPeers (fun ht => FMap.wf_insert ht.wf_peers x.isLt p) (.inl hon)

theorem Steady.arrive (h : Steady q line s) (hon : s.receiverOn = true) (hd : Header) (body : Body) :
    Steady q line (s.arrive hd body) := (h.insertPeer hon ..).notify _

theorem Steady.peerTakes (h : Steady q line s) (hon : s.receiverOn = true) (hd : Header) (body : Body) :
    Steady q line (s.peerTakes hd body) := by
  unfold State.peerTakes
  split
  · split
    · exact h
    · exact h.arrive hon hd body
  · split
    · exact h.depart ..
    · split
      · exact h.insertPeer hon hd.source _
      · exact (h.depart ..).arrive ((State.depart_receiverOn ..).trans hon) hd body

/-! ### The station as a whole -/

/-- DETACHED is entered with no work and no station-kind request left (R161). -/
theorem Steady.enterDetached (h : Steady q line s) (hslots : q → s.slots = []) (hcontexts : q → s.contexts = [])
    (hrequests : q → ∀ r ∈ s.port.requests, ¬ r.kind.ofStation) : Steady q line s.enterDetached where
  tables hq := by
    obtain ⟨h1, h2, -, h4, h5⟩ := h.tables hq
    exact ⟨h1, h2, rfl, wf_mapEntries _ h4, h5⟩
  requests hq := (h.requests hq).of_sublist (.refl _)
  modes hq := by
    have hnone := hrequests hq
    refine ⟨fun _ _ => ⟨hslots hq, hcontexts hq⟩, fun _ => ⟨rfl, rfl, rfl, rfl, rfl, rfl⟩, by simp [State.enterDetached],
      by simp [State.enterDetached, State.departingOwed], fun r hr hk => absurd (.inl hk) (hnone r hr),
      fun r hr hk => absurd (.inr hk) (hnone r hr), ?_⟩
    exact (stationRequests_eq_zero hnone).trans_le (Nat.zero_le _)
  line := h.line

/-- Everything that MUTED does not hold is given up at its entry (R162). -/
theorem Steady.enterMuted (h : Steady q line s) (reason : MuteReason) : Steady q line (s.enterMuted reason) where
  tables hq := by
    obtain ⟨-, -, h3, h4, h5⟩ := h.tables hq
    exact ⟨by simp [State.enterMuted, FMap.wf], by simp [State.enterMuted, FMap.wf], by simpa using h3,
      by simpa [State.enterMuted] using wf_mapEntries _ h4, by simpa using h5⟩
  requests hq := (h.requests hq).of_sublist (by simp [State.enterMuted])
  modes _ := by simp [ModeLaw, State.enterMuted, State.departingOwed]
  line := by simpa [State.enterMuted] using h.line

theorem Steady.duplicateNumber (h : Steady q line s) : Steady q line s.duplicateNumber := by
  have hcounted : Steady q line { s with span := { s.span with duplicates := countUp s.span.duplicates } } := h.of_move
  unfold State.duplicateNumber
  dsimp only
  split
  · rename_i hmode
    have hwork (hq : q) : s.slots = [] ∧ s.contexts = [] := (h.modes hq).1 (by simp [hmode]) (by simp [hmode])
    have hended := hcounted.completeHeld
      (({ s with span := { s.span with duplicates := countUp s.span.duplicates } } : State).stationRequest .attach)
      { result := .duplicate, station := some s.station.number }
    refine hended.enterDetached (fun hq => by simpa using (hwork hq).1) (fun hq => by simpa using (hwork hq).2)
      fun hq r hr hk => ?_
    obtain ⟨-, -, -, -, -, hwithdraw, hone⟩ := hcounted.modes hq
    obtain ⟨-, -, hnodup⟩ := hcounted.requests hq
    rcases hk with hk | hk
    · exact State.completeHeld_stationRequest hnodup hone (.inl rfl) _ r hr hk
    · have hmem := (State.completeHeld_requests_sublist ..).subset hr
      have hmoded := hwithdraw r hmem hk
      rw [hmode] at hmoded
      cases hmoded
  · exact hcounted.enterMuted _
  · exact hcounted.enterMuted _
  · exact hcounted
  · exact hcounted

theorem Steady.of_cleared {t : State} (htables : TableLaw t) (hmode : t.station.mode = .detached)
    (hslots : t.slots = []) (hcontexts : t.contexts = []) (hpeers : t.peers = []) (hreplies : t.span.replies = [])
    (hattempt : t.span.attempt = none) (hbeacon : t.station.beacon = none) (hpresence : t.station.presence = none)
    (hlisten : t.station.listen = none) (hrequests : t.port.requests = []) (hline : t.station.inReset = line) :
    Steady q line t where
  tables _ := htables
  requests _ := by simp [RequestLaw, hrequests]
  modes _ := by
    simp [ModeLaw, hmode, hslots, hcontexts, hpeers, hreplies, hattempt, hbeacon, hpresence, hlisten, hrequests,
      State.departingOwed]
  line := hline

/-! ### Messages -/

theorem Steady.ownerChanges (h : Steady q line s) (c : Channel) (x : Station) :
    Steady q line (s.ownerChanges c x) := by
  unfold State.ownerChanges
  split
  · split
    · exact h.orphan ..
    · exact h
  · exact h

theorem Steady.ownerIndicated (h : Steady q line s) (c : Channel) (x : Station) :
    Steady q line (s.ownerIndicated c x) := by
  unfold State.ownerIndicated
  split
  · exact (h.setEntry ..).ownerChanges ..
  · exact (h.setEntry ..).ownerChanges ..
  · split
    · exact (h.freeSlot ..).completeHeld ..
    · exact h
  all_goals
    split
    · split
      · exact h.loseChannel ..
      · exact h.putSlot (State.slotAt_of_slotOf ‹_›) _
    · exact h

theorem Steady.channelTakes (h : Steady q line s) (hd : Header) (body : Body) :
    Steady q line (s.channelTakes hd body) := by
  unfold State.channelTakes
  split
  · exact h.ownerIndicated ..
  · split
    · exact h.setEntry ..
    · exact h

theorem Steady.takeClaim (h : Steady q line s) (hd : Header) : Steady q line (s.takeClaim hd) := by
  unfold State.takeClaim
  split
  · split
    · split
      · exact (h.freeSlot ..).completeHeld ..
      · exact h
    · exact h
  · exact h.addReply ..
  · exact h.addReply ..
  · exact h.addReply ..
  · exact h
  · exact h

theorem Steady.takeJoin (h : Steady q line s) (hd : Header) : Steady q line (s.takeJoin hd) := by
  unfold State.takeJoin
  split
  · exact h
  · split
    · split
      · exact (h.putSlot (State.slotAt_of_slotOf ‹_›) _).addReply ..
      · exact h
    · exact h.addReply ..
    · exact h
    · exact h
    all_goals
      split
      · exact h.addReply ..
      · exact h

theorem Steady.takeLeave (h : Steady q line s) (hd : Header) : Steady q line (s.takeLeave hd) := by
  unfold State.takeLeave
  split
  · exact h
  · split
    case h_1 | h_2 =>
      split
      · exact (h.putSlot (State.slotAt_of_slotOf ‹_›) _).addReply ..
      · exact h
    all_goals
      split
      · exact h.addReply ..
      · exact h

theorem Steady.takeDrained (h : Steady q line s) (hd : Header) : Steady q line (s.takeDrained hd) := by
  unfold State.takeDrained
  split
  · split
    · split
      · exact h.putSlot (State.slotAt_of_slotOf ‹_›) _
      · exact h
    · exact h
  · exact h

theorem Steady.takeAdmit (h : Steady q line s) (hd : Header) (next : Seq) : Steady q line (s.takeAdmit hd next) := by
  unfold State.takeAdmit
  split
  · split
    · split
      · exact ((h.putContext (State.contextAt_of_contextOf ‹_›) _).setEntry ..).completeHeld ..
      · exact h
    · split
      · exact h
      · exact h.addReply ..
  · exact h

theorem Steady.endJoin (h : Steady q line s) (i : Nat) (k : Context) (e : Ending) :
    Steady q line (s.endJoin i k e) := (h.freeContext ..).completeHeld ..

theorem Steady.takeDenyReleasing (h : Steady q line s) (hd : Header) : Steady q line (s.takeDenyReleasing hd) := by
  unfold State.takeDenyReleasing
  split
  · split
    · split
      · exact h.endJoin ..
      · exact h
    · exact h
  · exact h

theorem Steady.takeDenyNotOwner (h : Steady q line s) (hd : Header) : Steady q line (s.takeDenyNotOwner hd) := by
  unfold State.takeDenyNotOwner
  split
  · split
    · rename_i i k hk
      have hat := State.contextAt_of_contextOf hk
      have hfree := h.setEntry hd.channel (s.entry hd.channel).toFree
      split
      · dsimp only
        split
        · exact hfree.endJoin ..
        · split
          · exact hfree
          · exact hfree.putContext hat _
      · exact h
    · exact h
  · exact h

theorem Steady.takeLeft (h : Steady q line s) (hd : Header) : Steady q line (s.takeLeft hd) := by
  unfold State.takeLeft
  split
  · split
    · split
      · exact (h.freeContext ..).completeHeld ..
      · exact h
    · exact h
  · exact h

theorem Steady.takeDrain (h : Steady q line s) (hd : Header) : Steady q line (s.takeDrain hd) := by
  unfold State.takeDrain
  split
  · rename_i i k hk
    have hat := State.contextAt_of_contextOf hk
    split
    · split
      · exact (h.putContext hat _).setEntry ..
      · split
        · exact h.putContext hat _
        · exact h
      · exact h
      · exact h
    · exact h
  · exact h

theorem Steady.takeRelease (h : Steady q line s) (hd : Header) : Steady q line (s.takeRelease hd) := by
  unfold State.takeRelease
  split
  · split
    · exact ((h.freeContext ..).notify _).completeHeld ..
    · exact h
  · exact h

theorem Steady.countStray (h : Steady q line s) : Steady q line s.countStray :=
  h.of_move (htables := id)

theorem Steady.routeCell (h : Steady q line s) (hd : Header) (n : Seq) (payload : List Octet) (missing : Option Nat) :
    Steady q line (s.routeCell hd n payload missing) := by
  unfold State.routeCell
  dsimp only
  split
  · exact h
  · split
    · exact h.offer ..
    · split
      · exact h.offer ..
      · split
        · exact h.offer ..
        · split
          · exact h.countStray
          · exact h

theorem Steady.classify (h : Steady q line s) (hd : Header) (n : Seq) (payload : List Octet) :
    Steady q line (s.classify hd n payload) := by
  unfold State.classify
  split
  · rename_i i k e he
    obtain ⟨⟨j, x⟩, hof, hx⟩ := Option.bind_eq_some_iff.mp he
    obtain ⟨e', -, heq⟩ := Option.map_eq_some_iff.mp hx
    simp only [Prod.mk.injEq] at heq
    obtain ⟨rfl, rfl, rfl⟩ := heq
    split
    · exact h.countStray
    · exact (h.putContext (State.contextAt_of_contextOf hof) _).routeCell ..
  · exact h.routeCell ..

theorem Steady.consume (h : Steady q line s) (hd : Header) (body : Body) : Steady q line (s.consume hd body) := by
  cases body with
  | claim => exact h.takeClaim hd
  | hold => exact h
  | announce => exact h
  | join => exact h.takeJoin hd
  | admission next => exact h.takeAdmit hd next
  | deny reason =>
    cases reason with
    | releasing => exact h.takeDenyReleasing hd
    | notOwner => exact h.takeDenyNotOwner hd
  | leave => exact h.takeLeave hd
  | left => exact h.takeLeft hd
  | drain => exact h.takeDrain hd
  | drained => exact h.takeDrained hd
  | release => exact h.takeRelease hd
  | data n payload => exact h.classify hd n payload
  | beacon => exact h

theorem Steady.hear (h : Steady q line s) (hon : s.receiverOn = true) (hd : Header) (body : Body) :
    Steady q line (s.hear hd body) := by
  have hpeers := h.peerTakes hon hd body
  by_cases hb : ∃ interval, body = .beacon interval
  · obtain ⟨interval, rfl⟩ := hb
    exact hpeers
  · rw [State.hear_eq (not_exists.mp hb)]
    exact (hpeers.channelTakes hd body).consume hd body

theorem Steady.countMalformed (h : Steady q line s) : Steady q line s.countMalformed := h.of_move

theorem Steady.receive (h : Steady q line s) (hd : Header) (body : Option Body) :
    Steady q line (s.receive hd body) := by
  unfold State.receive
  split
  · exact h
  · rename_i hon
    split
    · exact h.countMalformed
    · split
      · exact h.countMalformed
      · split
        · split
          · exact h
          · exact h.duplicateNumber
        · exact h.hear (by simpa using hon) ..

/-! ### Transmissions -/

theorem Steady.setBeacon (h : Steady q line s) {b : Option OwedBeacon} (hnone : s.station.beacon = none → b = none)
    (hdeparting : ∀ x, b = some x → x.departing = true → s.departingOwed = true) : Steady q line (s.setBeacon b) :=
  h.of_move (hbeacon := .inr hnone) (hdeparting := fun hd => .inl <| by
    cases hb : b with
    | none => simp [State.departingOwed, hb] at hd
    | some x => exact hdeparting x hb (by simpa [State.departingOwed, hb] using hd))

theorem Steady.mark (h : Steady q line s) (sender : Sender) (wire : Bool) : Steady q line (s.mark sender wire) := by
  cases sender with
  | reply => exact h.setReplies fun hnil => by rw [hnil]; rfl
  | slot i =>
    unfold State.mark
    dsimp only
    split
    · exact h.putSlot ‹_› _
    · exact h
  | context i =>
    unfold State.mark
    dsimp only
    split
    · exact h.putContext ‹_› _
    · exact h
  | beacon =>
    refine h.setBeacon (fun hnone => by rw [hnone]; rfl) fun x hx hd => ?_
    obtain ⟨b, hb, rfl⟩ := Option.map_eq_some_iff.mp hx
    simpa [State.departingOwed, hb] using hd
  | fifo => exact h.setFifo (.inr fun hnil => by rw [hnil]; rfl)

theorem State.mark_transmitterOn (s : State) (sender : Sender) (wire : Bool) :
    (s.mark sender wire).transmitterOn = s.transmitterOn := by
  have hmode : (s.mark sender wire).station.mode = s.station.mode := by
    unfold State.mark
    (repeat' split) <;> rfl
  rw [State.transmitterOn, hmode, State.transmitterOn]

theorem Steady.setFailures (h : Steady q line s) (n : Nat) : Steady q line (s.setFailures n) := h.of_move

theorem Steady.endAttempt (h : Steady q line s) : Steady q line (s.setAttempt none) :=
  h.of_move (hattempt := .inr fun _ => rfl)

theorem Steady.leaveReply (h : Steady q line s) {r : Reply} {rest : List Reply} (hr : s.wireReply = some (r, rest))
    (l : List Reply) : Steady q line (s.setReplies l) :=
  h.setReplies fun hnil => by simp [State.wireReply, hnil] at hr

theorem Steady.loseContention (h : Steady q line s) (sender : Sender) : Steady q line (s.loseContention sender) := by
  unfold State.loseContention
  split
  · split
    · split
      · exact h.leaveReply ‹_› _
      · exact h.mark ..
    · exact h
  · split
    · exact h.dropHeadData
    · exact h.mark ..
  all_goals exact h.mark ..

theorem Steady.winClaim (h : Steady q line s) {i : Nat} {sl : Slot} (hs : s.slotAt i = some sl) :
    Steady q line (s.winClaim i sl) := by
  have hheld : Steady q line (s.holdClaim i sl) := ((h.putSlot hs _).setEntry ..).completeHeld ..
  obtain ⟨hat, -⟩ := State.holdClaim_spec s i sl
  rw [State.winClaim_eq]
  split
  · exact hheld.startRelease hat ..
  · exact hheld

theorem Steady.echoSlot (h : Steady q line s) {i : Nat} {sl : Slot} (hs : s.slotAt i = some sl) (m : SlotMessage) :
    Steady q line (s.echoSlot i sl m) := by
  cases m with
  | claim => exact h.putSlot hs _
  | announce =>
    unfold State.echoSlot
    dsimp only
    split
    · exact h.winClaim hs
    · exact h.putSlot hs _
  | drain => exact h.putSlot hs _
  | release => exact h.endRelease ..

theorem Steady.echoContext (h : Steady q line s) {i : Nat} {k : Context} (hs : s.contextAt i = some k)
    (m : ContextMessage) : Steady q line (s.echoContext i k m) := by
  cases m with
  | join => exact h.putContext hs _
  | leave => exact h.putContext hs _
  | drained => exact h.putContext hs _

/-- The departing BEACON ends with nothing remaining but the WITHDRAW that it completes (R159, R160). -/
theorem Steady.endBeacon (h : Steady q line s) {b : OwedBeacon} (hb : s.station.beacon = some b) :
    Steady q line (s.endBeacon b) := by
  unfold State.endBeacon
  split
  · rename_i hd
    have howed : s.departingOwed = true := by simpa [State.departingOwed, hb] using hd
    refine (h.completeHeld ..).enterDetached (fun hq => ?_) (fun hq => ?_) fun hq r hr hk => ?_
    · obtain ⟨-, hslots, -⟩ := (h.modes hq).of_departing howed
      simpa using hslots
    · obtain ⟨-, -, hcontexts, -⟩ := (h.modes hq).of_departing howed
      simpa using hcontexts
    · obtain ⟨-, -, -, hwithdraw⟩ := (h.modes hq).of_departing howed
      obtain ⟨-, -, -, -, -, -, hone⟩ := h.modes hq
      obtain ⟨-, -, hnodup⟩ := h.requests hq
      exact State.completeHeld_stationRequest hnodup hone (.inr rfl) _ r hr
        (hwithdraw r ((State.completeHeld_requests_sublist ..).subset hr))
  · exact h.setBeacon (fun _ => rfl) (by simp)

theorem State.standingBeacon_spec {b : OwedBeacon} (h : s.standingBeacon = some b) : s.station.beacon = some b := by
  obtain ⟨x, hx, h⟩ := Option.bind_eq_some_iff.mp h
  split at h
  · cases h
    exact hx
  · cases h

theorem Steady.echoTo (h : Steady q line s) (sender : Sender) : Steady q line (s.echoTo sender) := by
  unfold State.echoTo
  split
  · split
    · exact h.leaveReply ‹_› _
    · exact h
  · split
    · rename_i hstands
      exact h.echoSlot (State.standingSlot_spec hstands).1 _
    · exact h
  · split
    · rename_i hstands
      exact h.echoContext (State.standingContext_spec hstands) _
    · exact h
  · split
    · rename_i hstands
      exact h.endBeacon (State.standingBeacon_spec hstands)
    · exact h
  · split
    · exact h.dropHeadData
    · exact h

theorem Steady.abandonSlot (h : Steady q line s) {i : Nat} {sl : Slot} (hs : s.slotAt i = some sl) (m : SlotMessage) :
    Steady q line (s.abandonSlot i sl m) := by
  cases m with
  | claim => exact (h.freeSlot ..).completeHeld ..
  | announce =>
    unfold State.abandonSlot
    dsimp only
    split
    · exact (h.freeSlot ..).completeHeld ..
    · exact h.putSlot hs _
  | drain => exact h.putSlot hs _
  | release => exact h.endRelease ..

theorem Steady.failSlot (h : Steady q line s) {i : Nat} {sl : Slot} (hs : s.slotAt i = some sl) (o : SlotOwed) :
    Steady q line (s.failSlot i sl o) := by
  unfold State.failSlot
  split
  · exact h.abandonSlot hs _
  · exact h.putSlot hs _

theorem Steady.failContext (h : Steady q line s) {i : Nat} {k : Context} (hs : s.contextAt i = some k)
    (o : ContextOwed) : Steady q line (s.failContext i k o) := by
  unfold State.failContext State.abandonContext
  split
  · split
    · exact h.putContext hs _
    · exact h.putContext hs _
    · exact h.putContext hs _
  · exact h.putContext hs _

theorem Steady.failBeacon (h : Steady q line s) {b : OwedBeacon} (hb : s.station.beacon = some b) :
    Steady q line (s.failBeacon b) := by
  unfold State.failBeacon
  split
  · exact h.endBeacon hb
  · refine h.setBeacon (fun hnone => by simp [hb] at hnone) fun x hx hd => ?_
    cases hx
    simpa [State.departingOwed, hb] using hd

theorem Steady.failReply (h : Steady q line s) {r : Reply} {rest : List Reply} (hr : s.wireReply = some (r, rest)) :
    Steady q line (s.failReply r rest) := by
  unfold State.failReply
  split
  · exact h.leaveReply hr _
  · exact h.leaveReply hr _

theorem Steady.failData (h : Steady q line s) : Steady q line s.failData := by
  unfold State.failData
  split
  · rename_i hfifo
    split
    · exact h.dropHeadData
    · split
      · have hcounted : Steady q line s.countSendFailure := h.of_move
        exact hcounted.dropHeadData
      · exact h.setFifo (.inr fun hnil => by simp [hnil] at hfifo)
  · exact h

theorem Steady.failTo (h : Steady q line s) (sender : Sender) : Steady q line (s.failTo sender) := by
  unfold State.failTo
  split
  · split
    · exact h.failReply ‹_›
    · exact h
  · split
    · rename_i hstands
      exact h.failSlot (State.standingSlot_spec hstands).1 _
    · exact h
  · split
    · rename_i hstands
      exact h.failContext (State.standingContext_spec hstands) _
    · exact h
  · split
    · rename_i hstands
      exact h.failBeacon (State.standingBeacon_spec hstands)
    · exact h
  · exact h.failData

theorem Steady.muteOnFailures (h : Steady q line s) : Steady q line s.muteOnFailures := by
  unfold State.muteOnFailures
  split
  · exact h.enterMuted _
  · exact h

/-! ### Timers -/

theorem Steady.retryJoin (h : Steady q line s) {i : Nat} {k : Context} (hs : s.contextAt i = some k) :
    Steady q line (s.retryJoin i k) := by
  unfold State.retryJoin
  split
  · exact h.putContext hs _
  · exact (h.freeContext ..).completeHeld ..

theorem Steady.retryLeave (h : Steady q line s) {i : Nat} {k : Context} (hs : s.contextAt i = some k) :
    Steady q line (s.retryLeave i k) := by
  unfold State.retryLeave
  split
  · exact h.putContext hs _
  · exact (h.freeContext ..).completeHeld ..

theorem Steady.implyRelease (h : Steady q line s) (i : Nat) (k : Context) : Steady q line (s.implyRelease i k) :=
  ((h.setEntry ..).freeContext ..).notify _

/-- The listen period ends with the ATTACH, the one station-kind request of LISTENING (R156). -/
theorem Steady.endListening (h : Steady q line s) (hmode : s.station.mode = .listening) :
    Steady q line s.endListening := by
  obtain ⟨u, hu⟩ : ∃ u : State, u = { s with station := { s.station with mode := .active, listen := none } } :=
    ⟨_, rfl⟩
  have hend : s.endListening = u.completeHeld (u.stationRequest .attach) { result := .ok } := by rw [hu]; rfl
  have hstation : s.endListening.station = u.station := by
    rw [hend, State.completeHeld_station_of_mode (by simp [hu])]
  have hsublist : s.endListening.port.requests.Sublist s.port.requests := by
    rw [hend]
    exact (State.completeHeld_requests_sublist ..).trans (by simp [hu])
  have hline : s.endListening.station.inReset = line := by
    rw [hstation, hu]
    exact h.line
  refine ⟨fun hq => ?_, fun hq => (h.requests hq).of_sublist hsublist, fun hq => ?_, hline⟩
  · simpa [TableLaw] using h.tables hq
  · have hnot : s.endListening.departingOwed = false :=
      (State.departingOwed_of_station (s := u) hstation).trans
        (hu ▸ (h.modes hq).not_departing_of_mode (by simp [hmode]))
    obtain ⟨-, -, -, -, -, hwithdraw, hone⟩ := h.modes hq
    obtain ⟨-, -, hnodup⟩ := h.requests hq
    have hgone : ∀ r ∈ s.endListening.port.requests, r.kind ≠ .attach := by
      rw [hend]
      refine State.completeHeld_stationRequest ?_ ?_ (.inl rfl) _ <;> rw [hu]
      exacts [hnodup, hone]
    have hactive : s.endListening.station.mode = .active := by rw [hstation, hu]
    unfold ModeLaw
    rw [hactive]
    refine ⟨by simp, by simp, by simp, by simp [hnot], fun r hr hk => absurd hk (hgone r hr), fun r hr hk => ?_,
      hsublist.countP_le.trans hone⟩
    have hmoded := hwithdraw r (hsublist.subset hr) hk
    rw [hmode] at hmoded
    cases hmoded

theorem Steady.tick (h : Steady q line s) : Steady q line s.tick := by
  have htimers : Steady q line ({ s with
      station := { s.station with presence := elapse s.station.presence, listen := elapse s.station.listen },
      pending := s.elapsed.due } : State) :=
    h.of_move (hdeparting := .inl) (hpresence := fun hnone => congrArg elapse hnone)
      (hlisten := fun hnone => congrArg elapse hnone)
  exact ((htimers.mapSlots Slot.elapsed).mapContexts Context.elapsed).setPeers
    (fun ht => FMap.wf_mapValues ht.wf_peers Peer.elapsed)
    (.inr fun hnil => congrArg (FMap.mapValues Peer.elapsed) hnil)

/-! ### Requests -/

theorem Steady.respond (h : Steady q line s) (r : Result) (data : List Octet) : Steady q line (s.respond r data) :=
  h.of_move

theorem Steady.countFrameError (h : Steady q line s) : Steady q line s.countFrameError := h.of_move

/-- A request that passes the common checks keeps the Pending Request Table's law (R175, R176). -/
theorem RequestLaw.enterRequest (h : RequestLaw s) {tag : Octet} {more : Checks}
    (hc : firstFailing (List.append (s.longChecks tag) more) = none) (kind : RequestKind) (c : Option Channel) :
    RequestLaw (s.enterRequest tag kind c) := by
  have hfits : Fits False True False False s := ⟨False.elim, fun _ => h, False.elim, False.elim⟩
  exact (hfits.enterRequest hc kind c).requests trivial

/-- A request for a slot or a context, entered where no departing BEACON is owed. -/
theorem Steady.enterRequest (h : Steady q line s) {tag : Octet} {more : Checks}
    (hc : firstFailing (List.append (s.longChecks tag) more) = none) {kind : RequestKind} (hk : ¬ kind.ofStation)
    (hd : q → s.departingOwed = false) (c : Option Channel) : Steady q line (s.enterRequest tag kind c) where
  tables := h.tables
  requests hq := (h.requests hq).enterRequest hc kind c
  modes hq := by
    obtain ⟨hidle, hdetached, hmuted, -, hattach, hwithdraw, hone⟩ := h.modes hq
    have hnot : (s.enterRequest tag kind c).departingOwed = false := hd hq
    have hmem {r : PendingRequest} (hr : r ∈ (s.enterRequest tag kind c).port.requests) (hrk : r.kind.ofStation) :
        r ∈ s.port.requests := by
      refine (List.mem_append.mp hr).resolve_right fun hr => hk ?_
      rw [List.mem_singleton] at hr
      rwa [hr] at hrk
    refine ⟨hidle, hdetached, hmuted, by simp [hnot], fun r hr hrk => hattach r (hmem hr (.inl hrk)) hrk,
      fun r hr hrk => hwithdraw r (hmem hr (.inr hrk)) hrk, ?_⟩
    have hzero : stationRequests [⟨tag, kind, c⟩] = 0 := stationRequests_eq_zero (by simpa using hk)
    refine (List.countP_append ..).trans_le ?_
    exact (congrArg (_ + ·) hzero).trans_le hone
  line := h.line

/-- An ATTACH finds no station-kind request, and becomes the one there is (R154, R155). -/
theorem Steady.acceptAttach (h : Steady q line s) {tag : Octet} (hc : firstFailing (s.attachChecks tag) = none) :
    Steady q line (s.acceptAttach tag) where
  tables hq := by simpa [TableLaw] using h.tables hq
  requests hq := by
    have hentered := (h.requests hq).enterRequest hc .attach none
    exact hentered.of_sublist (.refl _)
  modes hq := by
    have hoff : s.transmitterOn = false := check_passes hc (s.transmitterOn, .wrongState) (by simp)
    have hmode : s.station.mode = .detached ∨ ∃ reason, s.station.mode = .muted reason := by
      cases hm : s.station.mode <;> simp_all [State.transmitterOn]
    have hnone := (h.modes hq).no_stationRequest (by rcases hmode with hm | ⟨reason, hm⟩ <;> simp [hm])
      (by rcases hmode with hm | ⟨reason, hm⟩ <;> simp [hm])
    obtain ⟨hidle, -⟩ := h.modes hq
    have hwork := hidle (by rcases hmode with hm | ⟨reason, hm⟩ <;> simp [hm])
      (by rcases hmode with hm | ⟨reason, hm⟩ <;> simp [hm])
    refine ⟨fun _ _ => hwork, ?_, ?_, ?_, fun r _ _ => rfl, fun r hr hk => ?_, ?_⟩
    · simp [State.acceptAttach]
    · simp [State.acceptAttach]
    · simp [State.acceptAttach, State.departingOwed]
    · rcases List.mem_append.mp hr with hr | hr
      · exact absurd (.inr hk) (hnone r hr)
      · rw [List.mem_singleton] at hr
        simp [hr] at hk
    · refine (List.countP_append ..).trans_le ?_
      exact (congrArg (· + _) (stationRequests_eq_zero hnone)).trans_le (by simp)
  line := h.line

/-- WITHDRAWING begins with the WITHDRAW as the one station-kind request (R158). -/
theorem Steady.enterWithdraw (h : Steady q line s) {tag : Octet} (hc : firstFailing (s.withdrawChecks tag) = none) :
    Steady q line
      (({ s with station := { s.station with mode := .withdrawing } } : State).enterRequest tag .withdraw none) where
  tables := h.tables
  requests hq := (h.requests hq).enterRequest hc .withdraw none
  modes hq := by
    have hmode : s.station.mode = .active := by
      simpa using check_passes hc (s.station.mode ≠ .active, .notActive) (by simp)
    have hnone := (h.modes hq).no_stationRequest (by simp [hmode]) (by simp [hmode])
    have hnot : s.departingOwed = false := (h.modes hq).not_departing_of_mode (by simp [hmode])
    refine ⟨by simp, by simp, by simp, fun hd => ?_, fun r hr hk => ?_, fun _ _ _ => rfl, ?_⟩
    · exact absurd (hnot.symm.trans hd) (by simp)
    · rcases List.mem_append.mp hr with hr | hr
      · exact absurd (.inl hk) (hnone r hr)
      · rw [List.mem_singleton] at hr
        simp [hr] at hk
    · refine (List.countP_append ..).trans_le ?_
      exact (congrArg (· + _) (stationRequests_eq_zero hnone)).trans_le (by simp)
  line := h.line

theorem Steady.abandon (h : Steady q line s) (a : Abandoned) : Steady q line (s.abandon a) := by
  cases a with
  | claim i sl => exact (h.freeSlot ..).completeHeld ..
  | join i k => exact (h.freeContext ..).completeHeld ..

/-- A table has a row for the number of each of its rows. -/
theorem FMap.exists_of_mem {α : Type} {m : FMap α} {row : Nat × α} (h : row ∈ m) : ∃ v, FMap.find? m row.1 = some v := by
  induction m with
  | nil => cases h
  | cons r rest ih =>
    obtain ⟨j, w⟩ := r
    rw [FMap.find?_cons]
    split
    · exact ⟨w, rfl⟩
    · rename_i hj
      refine ih ((List.mem_cons.mp h).resolve_left ?_)
      rintro rfl
      exact hj rfl

/-- A release leaves every slot in its place. -/
theorem State.exists_slotAt_startRelease {i j : Nat} {x : Slot} (hx : s.slotAt j = some x) (sl : Slot)
    (tag : Option Octet) : ∃ y, (s.startRelease i sl tag).slotAt j = some y := by
  obtain ⟨y, hy⟩ : ∃ y, (s.markRelease i sl tag).slotAt j = some y := by
    rw [State.markRelease_slotAt]
    split
    · exact ⟨_, rfl⟩
    · exact ⟨x, hx⟩
  obtain ⟨htaken, hother⟩ := (s.markRelease i sl tag).consumeMarkers_slotAt j
  rw [State.startRelease_eq]
  by_cases hc : Consumed (headMarkers (s.markRelease i sl tag).store.fifo) (s.markRelease i sl tag) j
  · exact ⟨_, (htaken hc).trans (congrArg _ hy)⟩
  · exact ⟨y, (hother hc).trans hy⟩

theorem Steady.withdrawSlots (h : Steady q line s) : Steady q line (s.slots.foldl State.withdrawSlot s) := by
  refine foldl_keeps (P := Steady q line) (Q := fun s row => ∃ x, s.slotAt row.1 = some x) (R := fun _ _ => True)
    (fun s row hs hrow => ?_) (fun s a b _ _ _ hb => ?_) (List.pairwise_of_forall fun _ _ => trivial) h
    fun row hrow => ?_
  · obtain ⟨x, hx⟩ := hrow
    unfold State.withdrawSlot
    split
    · exact hs.startRelease hx ..
    · exact hs
  · obtain ⟨x, hx⟩ := hb
    unfold State.withdrawSlot
    split
    · exact State.exists_slotAt_startRelease hx ..
    · exact ⟨x, hx⟩
  · exact FMap.exists_of_mem hrow

theorem Steady.withdrawContexts (h : Steady q line s) : Steady q line (s.contexts.foldl State.withdrawContext s) := by
  refine foldl_keeps (P := Steady q line) (Q := fun s row => ∃ x, s.contextAt row.1 = some x) (R := fun _ _ => True)
    (fun s row hs hrow => ?_) (fun s a b _ _ _ hb => ?_) (List.pairwise_of_forall fun _ _ => trivial) h
    fun row hrow => ?_
  · obtain ⟨x, hx⟩ := hrow
    unfold State.withdrawContext
    split
    · exact hs.startLeave hx ..
    · exact hs
  · obtain ⟨x, hx⟩ := hb
    unfold State.withdrawContext
    split
    · have hat := State.contextAt_of_insert (s := s) (t := s.startLeave a.1 a.2 none) rfl b.1
      rw [hat]
      split
      · exact ⟨_, rfl⟩
      · exact ⟨x, hx⟩
    · exact ⟨x, hx⟩
  · exact FMap.exists_of_mem hrow

theorem Steady.acceptWithdraw (h : Steady q line s) {tag : Octet} (hc : firstFailing (s.withdrawChecks tag) = none) :
    Steady q line (s.acceptWithdraw tag) := by
  unfold State.acceptWithdraw
  dsimp only
  refine Steady.testWithdrawal (Steady.withdrawContexts (Steady.withdrawSlots ?_))
  exact List.foldlRecOn _ _ (h.enterWithdraw hc) fun _ hs a _ => hs.abandon a

/-- A slot is allocated in ACTIVE (R26, R27). -/
theorem Steady.acceptClaim (h : Steady q line s) {tag : Octet} {channel : Half}
    (hc : firstFailing (s.claimChecks tag channel) = none) :
    Steady q line
      (s.acceptClaim tag (toChannel channel) ((FMap.lowestFree s.slots Config.slotCount).getD 0)) := by
  have hpass := check_passes hc
  simp only [List.mem_cons, List.not_mem_nil, or_false, forall_eq_or_imp, forall_eq, decide_eq_false_iff_not,
    Bool.or_eq_false_iff, ne_eq, not_not] at hpass
  obtain ⟨hactive, -, -, -, -, hslot⟩ := hpass
  obtain ⟨i, hi⟩ := Option.isSome_iff_exists.mp (Option.isNone_eq_false_iff.mp hslot)
  have hentered := h.enterRequest hc (kind := .claim) (by simp [RequestKind.ofStation])
    (fun hq => (h.modes hq).not_departing_of_mode (by simp [hactive])) (some (toChannel channel))
  have hput := hentered.setSlots
    (m := FMap.insert s.slots i (.allocated (toChannel channel) tag))
    (fun ht => FMap.wf_insert ht.wf_slots (FMap.lowestFree_spec hi).1 _) (.inl hactive)
  rw [hi]
  exact hput.setEntry (toChannel channel) ((s.entry (toChannel channel)).toLocal .claiming s.station.number i)

/-- A context is allocated in ACTIVE (R67, R68). -/
theorem Steady.acceptJoin (h : Steady q line s) {tag : Octet} {channel : Half}
    (hc : firstFailing (s.joinChecks tag channel) = none) :
    Steady q line
      (s.acceptJoin tag (toChannel channel) ((FMap.lowestFree s.contexts Config.contextCount).getD 0)) := by
  have hpass := check_passes hc
  simp only [List.mem_cons, List.not_mem_nil, or_false, forall_eq_or_imp, forall_eq, decide_eq_false_iff_not, ne_eq,
    not_not] at hpass
  obtain ⟨hactive, -, -, -, hcontext⟩ := hpass
  obtain ⟨i, hi⟩ := Option.isSome_iff_exists.mp (Option.isNone_eq_false_iff.mp hcontext)
  have hentered := h.enterRequest hc (kind := .join) (by simp [RequestKind.ofStation])
    (fun hq => (h.modes hq).not_departing_of_mode (by simp [hactive])) (some (toChannel channel))
  have hput := hentered.setContexts
    (m := FMap.insert s.contexts i
      (.allocated (toChannel channel) (s.entry (toChannel channel)).joinDestination tag))
    (fun ht => FMap.wf_insert ht.wf_contexts (FMap.lowestFree_spec hi).1 _) (.inl hactive)
  rw [hi]
  exact hput.setEntry (toChannel channel) ((s.entry (toChannel channel)).subscribed .joining i)

theorem Steady.acceptRelease (h : Steady q line s) {tag : Octet} {channel : Half}
    (hc : firstFailing (s.releaseChecks tag channel) = none) :
    Steady q line (s.acceptRelease tag (toChannel channel)) := by
  unfold State.acceptRelease
  split
  · rename_i i sl hs
    have hat := State.slotAt_of_slotOf hs
    have hentered := h.enterRequest hc (kind := .release) (by simp [RequestKind.ofStation])
      (fun hq => (h.modes hq).not_departing_of_slots (State.slots_ne_nil hat)) (some (toChannel channel))
    rw [State.startRelease_enterRequest]
    exact hentered.startRelease hat ..
  · exact h

theorem Steady.acceptLeave (h : Steady q line s) {tag : Octet} {channel : Half}
    (hc : firstFailing (s.leaveChecks tag channel) = none) :
    Steady q line (s.acceptLeave tag (toChannel channel)) := by
  unfold State.acceptLeave
  split
  · rename_i i k hk
    have hat := State.contextAt_of_contextOf hk
    have hentered := h.enterRequest hc (kind := .leave) (by simp [RequestKind.ofStation])
      (fun hq => (h.modes hq).not_departing_of_contexts (State.contexts_ne_nil_of_contextAt hat))
      (some (toChannel channel))
    exact hentered.startLeave hat ..
  · exact h

theorem Steady.acceptSend (h : Steady q line s) (c : Channel) (payload : List Octet) :
    Steady q line (s.acceptSend c payload) := by
  unfold State.acceptSend
  split
  · rename_i i sl n hs
    obtain ⟨⟨j, x⟩, hof, hx⟩ := Option.bind_eq_some_iff.mp hs
    obtain ⟨m, -, heq⟩ := Option.map_eq_some_iff.mp hx
    simp only [Prod.mk.injEq] at heq
    obtain ⟨rfl, rfl, rfl⟩ := heq
    have hput := h.putSlot (State.slotAt_of_slotOf hof) { x with transmitSequence := some (m + 1) }
    exact hput.of_move (hfifo := .inl (FMap.insert_ne_nil _ _ _))
  · exact h

theorem Steady.setFilter (h : Steady q line s) {k : Nat} (hk : k < 4) (f : Filter) : Steady q line (s.setFilter k f) := by
  refine h.of_move (htables := fun ⟨h1, h2, h3, h4, h5⟩ => ⟨h1, h2, h3, h4, ?_⟩)
  show FMap.wf 4 (if f = Filter.initial then _ else _) = true
  split
  · exact FMap.wf_erase h5 k
  · exact FMap.wf_insert h5 hk f

theorem Steady.abortClaim (h : Steady q line s) (tag : Octet) (c : Channel) : Steady q line (s.abortClaim tag c) := by
  unfold State.abortClaim
  split
  · split
    · exact ((h.freeSlot ..).complete ..).respond ..
    · exact h.respond ..
  · exact h.respond ..

theorem Steady.abortJoin (h : Steady q line s) (tag : Octet) (c : Channel) : Steady q line (s.abortJoin tag c) := by
  unfold State.abortJoin
  split
  · split
    · exact ((h.freeContext ..).complete ..).respond ..
    · exact h.respond ..
  · exact h.respond ..

/-- An ATTACH is aborted in LISTENING, where it is the one station-kind request (R161, R178). -/
theorem Steady.abortAttach (h : Steady q line s) {tag : Octet} {r : PendingRequest} (hr : s.requestWith tag = some r)
    (hk : r.kind = .attach) (e : Ending) : Steady q line (s.complete tag e).enterDetached := by
  obtain ⟨hmem, rfl⟩ := State.requestWith_spec hr
  have hport := (State.complete_some e hr).1
  have hwork (hq : q) : s.slots = [] ∧ s.contexts = [] := by
    obtain ⟨hidle, -, -, -, hattach, -⟩ := h.modes hq
    have hmode := hattach r hmem hk
    exact hidle (by simp [hmode]) (by simp [hmode])
  refine (h.complete ..).enterDetached (fun hq => ?_) (fun hq => ?_) fun hq => ?_
  · simpa using (hwork hq).1
  · simpa using (hwork hq).2
  · obtain ⟨-, -, -, -, -, -, hone⟩ := h.modes hq
    obtain ⟨-, -, hnodup⟩ := h.requests hq
    rw [hport]
    exact no_stationRequest_erased hnodup hone hmem (.inl hk)

theorem Steady.restarted (h : Steady q line s) : Steady q line s.restarted where
  tables hq := by
    obtain ⟨-, -, -, h4, h5⟩ := h.tables hq
    exact ⟨rfl, rfl, rfl, wf_mapEntries _ h4, h5⟩
  requests _ := by simp [RequestLaw, State.restarted]
  modes _ := by simp [ModeLaw, State.restarted, State.departingOwed]
  line := h.line

/-! ### Commands -/

theorem Steady.of_next {u : State} (h : Steady q line u)
    (he : (.next u : Host.Outcome State Fault Refusal) = .next t) : Steady q line t := by
  cases he
  exact h

/-- The effect of a transaction of the local port, as exec answers it. -/
theorem Steady.of_transact (h : Steady q line s) {effect : State → State}
    (he : (.next (s.transact effect) : Host.Outcome State Fault Refusal) = .next t)
    (hk : Steady q line (effect s)) : Steady q line t := by
  refine Steady.of_next ?_ he
  unfold State.transact
  split
  · exact h
  · split
    · exact h.of_move
    · exact hk

/-- A long request as its checks decide it: refused with no effect, or accepted. -/
theorem Steady.of_request (h : Steady q line s) {checks : State → Checks} {accept : State → State}
    (he : (.next (s.transact fun s =>
      match firstFailing (checks s) with
      | some r => s.respond r []
      | none => (accept s).respond .ok []) : Host.Outcome State Fault Refusal) = .next t)
    (hk : firstFailing (checks s) = none → Steady q line (accept s)) : Steady q line t := by
  refine h.of_transact he ?_
  split
  · exact h.respond ..
  · rename_i hc
    exact (hk hc).respond ..

theorem Steady.execLoadStartup (h : Steady q line s) {tag : Octet} {fields : StartupRecord}
    (he : execLoadStartup tag fields s = .next t) : Steady q line t := by
  refine h.of_transact he ?_
  split
  · exact h.respond ..
  · split
    · exact h.respond ..
    · split
      · exact h.respond ..
      · have haccepted : Steady q line (s.acceptStartup fields) := h.of_move (hmode := rfl)
          (hfifo := .inr id) (hbeacon := .inr id) (hdeparting := .inl) (hpresence := id) (hlisten := id) (hline := rfl)
        exact haccepted.respond ..

theorem Steady.execSend (h : Steady q line s) {tag : Octet} {channel : Half} {length : Octet} {payload : List Octet}
    (he : execSend tag channel length payload s = .next t) : Steady q line t := by
  refine h.of_transact he ?_
  split
  · exact h.countFrameError
  · split
    · exact h.respond ..
    · exact h.acceptSend ..

theorem Steady.execSetFilter (h : Steady q line s) {tag : Octet} {p : FilterParameters}
    (he : execSetFilter tag p s = .next t) : Steady q line t := by
  refine h.of_transact he ?_
  split
  · exact h.respond ..
  · rename_i hc
    exact (h.setFilter (filterIndex_lt hc) _).respond ..

theorem Steady.execSetAction (h : Steady q line s) {tag : Octet} {channel : Half} {actions : Octet}
    (he : execSetAction tag channel actions s = .next t) : Steady q line t := by
  refine h.of_transact he ?_
  split
  · exact h.respond ..
  · split
    · exact h.respond ..
    · exact (h.setEntry ..).respond ..

theorem Steady.execTake (h : Steady q line s) {tag queue : Octet} (he : execTake tag queue s = .next t) :
    Steady q line t := by
  refine h.of_transact he ?_
  split
  · exact h.respond ..
  · dsimp only
    split
    · exact h.respond ..
    · exact ((h.setQueue ..).dequeued _).respond ..

theorem Steady.execFlush (h : Steady q line s) {tag queue : Octet} (he : execFlush tag queue s = .next t) :
    Steady q line t := by
  refine h.of_transact he ?_
  split
  · exact h.respond ..
  · dsimp only
    split
    · exact h.respond ..
    · exact Steady.respond (List.foldlRecOn _ _ (h.setQueue ..) fun _ hs d _ => hs.dequeued d) ..

theorem Steady.execReadEvent (h : Steady q line s) {tag : Octet} (he : execReadEvent tag s = .next t) :
    Steady q line t := by
  refine h.of_transact he ?_
  split
  · exact h.respond ..
  · exact h.of_move

theorem Steady.execAbort (h : Steady q line s) {tag : Octet} (he : execAbort tag s = .next t) :
    Steady q line t := by
  refine h.of_transact he ?_
  split
  · exact h.respond ..
  · rename_i r hr
    split
    · exact h.abortClaim ..
    · exact h.abortJoin ..
    · exact (h.abortAttach hr ‹_› _).respond ..
    all_goals exact h.respond ..

theorem Steady.execTransmitAttempt (h : Steady q line s) (he : execTransmitAttempt s = .next t) :
    Steady q line t := by
  refine Steady.of_next ?_ he
  split
  · rename_i hidle
    split
    · rename_i a _
      have hmarked := h.mark a.sender true
      exact hmarked.of_move (hattempt := .inl ((State.mark_transmitterOn ..).trans hidle.1))
    · exact h
  · exact h

theorem Steady.execLostContention (h : Steady q line s) (he : execLostContention s = .next t) :
    Steady q line t := by
  refine Steady.of_next ?_ he
  split
  · exact h.endAttempt.loseContention _
  · exact h

theorem Steady.execEcho (h : Steady q line s) (he : execEcho s = .next t) : Steady q line t := by
  refine Steady.of_next ?_ he
  split
  · exact (h.endAttempt.setFailures _).echoTo _
  · exact h

theorem Steady.execFailedAttempt (h : Steady q line s) {cause : AttemptFailure}
    (he : execFailedAttempt cause s = .next t) : Steady q line t := by
  refine Steady.of_next ?_ he
  split
  · exact ((h.endAttempt.setFailures _).failTo _).muteOnFailures
  · exact h

theorem Steady.execMalformedMessage (h : Steady q line s) {octets : List Octet}
    (he : execMalformedMessage octets s = .next t) : Steady q line t := by
  refine Steady.of_next ?_ he
  split
  · exact h.receive ..
  · split
    · exact h.countMalformed
    · exact h

/-- What happens on a condition, and nothing without it. -/
theorem Steady.only_if (h : Steady q line s) {p : Prop} [Decidable p] (ht : p → Steady q line t) :
    Steady q line (if p then t else s) := by
  split
  · exact ht ‹_›
  · exact h

/-- The presence timer runs in no state that owes no BEACON (R125, R150). -/
theorem Steady.execPresenceTimerExpiry (h : Steady q line s) (he : execPresenceTimerExpiry s = .next t) :
    Steady q line t := by
  refine Steady.of_next (h.only_if fun hexpired => ?_) he
  have hruns : s.station.presence ≠ none := ne_none_of_expired hexpired
  refine ⟨h.tables, h.requests, fun hq => ?_, h.line⟩
  obtain ⟨hidle, hdetached, hmuted, hdeparting, hrest⟩ := h.modes hq
  refine ⟨hidle, fun hm => ?_, fun reason hm => ?_, fun hd => ?_, hrest⟩
  · exact absurd (hdetached hm).2.2.2.2.1 hruns
  · exact absurd (hmuted reason hm).2.2.2.1 hruns
  · refine hdeparting ?_
    cases hb : s.station.beacon with
    | none => simp [State.departingOwed, hb] at hd
    | some b => simpa [State.departingOwed, hb] using hd

/-- Every command but POWER_ON_RESET keeps the laws and the level of RSTn. -/
theorem Steady.exec (h : Steady q line s) {c : Instr} (hc : ∀ edge, c ≠ .powerOnReset edge)
    (he : exec c s = .next t) : Steady q line t := by
  cases c with
  | loadStartup tag fields => exact h.execLoadStartup (tag := tag) he
  | attach tag => exact h.of_request he h.acceptAttach
  | withdraw tag => exact h.of_request he h.acceptWithdraw
  | restart tag => exact h.of_transact he (h.restarted.respond ..)
  | readStation tag => exact h.of_transact he (h.respond ..)
  | claimRequest tag channel => exact h.of_request he h.acceptClaim
  | releaseRequest tag channel => exact h.of_request he h.acceptRelease
  | send tag channel length payload => exact h.execSend (tag := tag) he
  | joinRequest tag channel => exact h.of_request he h.acceptJoin
  | leaveRequest tag channel => exact h.of_request he h.acceptLeave
  | setAction tag channel actions => exact h.execSetAction (tag := tag) he
  | readChannel tag channel => exact h.of_transact he (by split <;> exact h.respond ..)
  | setFilter tag parameters => exact h.execSetFilter (tag := tag) he
  | readFilter tag index => exact h.of_transact he (by split <;> exact h.respond ..)
  | take tag queue => exact h.execTake (tag := tag) he
  | flush tag queue => exact h.execFlush (tag := tag) he
  | readPeer tag station => exact h.of_transact he (by split <;> exact h.respond ..)
  | readEvent tag => exact h.execReadEvent (tag := tag) he
  | abort tag => exact h.execAbort he
  | badRequest code =>
    refine h.of_transact he ?_
    split
    · exact h.countFrameError
    · exact h.respond ..
  | incompleteRequest octets bits => exact h.of_transact he (h.only_if fun _ => h.countFrameError)
  | powerOnReset edge => exact absurd rfl (hc edge)
  | transmitAttempt => exact h.execTransmitAttempt he
  | lostContention => exact h.execLostContention he
  | echo => exact h.execEcho he
  | failedAttempt cause => exact h.execFailedAttempt (cause := cause) he
  | claimMessage header => exact (h.receive ..).of_next he
  | holdMessage header => exact (h.receive ..).of_next he
  | announceMessage header => exact (h.receive ..).of_next he
  | joinMessage header => exact (h.receive ..).of_next he
  | admitMessage header next => exact (h.receive ..).of_next he
  | denyMessage header reason => exact (h.receive ..).of_next he
  | leaveMessage header => exact (h.receive ..).of_next he
  | leftMessage header => exact (h.receive ..).of_next he
  | drainMessage header => exact (h.receive ..).of_next he
  | drainedMessage header => exact (h.receive ..).of_next he
  | releaseMessage header => exact (h.receive ..).of_next he
  | dataMessage header sequence length payload => exact (h.receive ..).of_next he
  | beaconMessage header interval => exact (h.receive ..).of_next he
  | malformedMessage octets => exact h.execMalformedMessage he
  | duplicateNumberEvent => exact (h.only_if fun _ => h.duplicateNumber).of_next he
  | claimWindowExpiry slot =>
    refine Steady.of_next ?_ he
    split
    · exact h.only_if fun _ => (h.putSlot ‹_› _).setEntry ..
    · exact h
  | resendTimerExpiry slot =>
    refine Steady.of_next ?_ he
    split
    · exact h.only_if fun _ => h.putSlot ‹_› _
    · exact h
  | drainTimerExpiry slot =>
    refine Steady.of_next ?_ he
    split
    · exact h.only_if fun _ => h.putSlot ‹_› _
    · exact h
  | joinResponseTimerExpiry context =>
    refine Steady.of_next ?_ he
    split
    · exact h.only_if fun _ => h.retryJoin ‹_›
    · exact h
  | leaveResponseTimerExpiry context =>
    refine Steady.of_next ?_ he
    split
    · exact h.only_if fun _ => h.retryLeave ‹_›
    · exact h
  | drainWaitTimerExpiry context =>
    refine Steady.of_next ?_ he
    split
    · exact h.only_if fun _ => h.implyRelease ..
    · exact h
  | peerTimerExpiry station =>
    refine Steady.of_next ?_ he
    split
    · exact h.only_if fun _ => h.depart ..
    · exact h
  | presenceTimerExpiry => exact h.execPresenceTimerExpiry he
  | listenTimerExpiry => exact (h.only_if fun hdue => h.endListening hdue.1).of_next he

end

end Sys2Proof.Machine

/-! ## RSTn and the state after reset (O1, O57), and the station's state law (O56). -/

namespace Sys2Proof.Machine

/-! ### A station held in power-on reset -/

/-- A transaction of the local port, whatever its request asks for (R167, R189). -/
theorem exec_portCommand {c : Instr} (hc : PortCommand c) :
    ∃ effect, ∀ s : State, exec c s = .next (s.transact effect) := by
  cases c
  case loadStartup | attach | withdraw | restart | readStation | claimRequest | releaseRequest | send | joinRequest |
      leaveRequest | setAction | readChannel | setFilter | readFilter | take | flush | readPeer | readEvent | abort |
      badRequest | incompleteRequest =>
    exact ⟨_, fun _ => rfl⟩
  all_goals exact hc.elim

/-- While RSTn is asserted no command but the deassertion has an effect: the local port takes no transaction, the receiver is
off, nothing is on the wire and no timer runs (R189). -/
theorem exec_held {s : State} (hlaw : ResetLaw s) (hheld : s.station.inReset = true) {c : Instr}
    (hc : ∀ straps selected, c ≠ .powerOnReset (.released straps selected)) : exec c s = .next s := by
  by_cases hport : PortCommand c
  · obtain ⟨effect, heffect⟩ := exec_portCommand hport
    rw [heffect, State.transact_inReset hheld]
  · rw [← hlaw hheld]
    cases c
    case powerOnReset edge =>
      cases edge with
      | asserted => rfl
      | released straps selected => exact absurd rfl (hc straps selected)
    case malformedMessage octets =>
      show execMalformedMessage octets s.assertReset = _
      unfold execMalformedMessage
      split <;> rfl
    case transmitAttempt | lostContention | echo | failedAttempt | claimMessage | holdMessage | announceMessage |
        joinMessage | admitMessage | denyMessage | leaveMessage | leftMessage | drainMessage | drainedMessage |
        releaseMessage | dataMessage | beaconMessage | duplicateNumberEvent | claimWindowExpiry | resendTimerExpiry |
        drainTimerExpiry | joinResponseTimerExpiry | leaveResponseTimerExpiry | drainWaitTimerExpiry | peerTimerExpiry |
        presenceTimerExpiry | listenTimerExpiry =>
      rfl
    all_goals exact absurd trivial hport

/-- The two edges of RSTn leave the state after reset, with the level of RSTn, the open transaction that is not taken, and the
commands that wait (R165, log 18, log 21). -/
def State.resetAs (straps : Station) (held unread : Bool) (pending : List Instr) : State :=
  { State.afterReset straps with
    station := { (State.afterReset straps).station with inReset := held }
    port := { (State.afterReset straps).port with unread := unread }
    pending := pending }

theorem State.assertReset_eq (s : State) : s.assertReset = State.resetAs s.station.number true false s.pending := rfl

theorem State.releaseReset_eq (s : State) (straps : Station) (selected : Bool) :
    s.releaseReset straps selected = State.resetAs straps false selected s.pending := rfl

theorem State.resetAs_initial (straps : Station) (held unread : Bool) (pending : List Instr) :
    Initial (State.resetAs straps held unread pending) :=
  ⟨rfl, rfl, rfl, rfl, rfl, rfl, rfl, rfl, rfl, rfl, fun _ => rfl, fun _ => rfl, fun _ => rfl, fun _ => rfl,
    fun _ => rfl, rfl, fun n => by cases n <;> rfl, rfl, rfl, rfl, rfl, rfl, rfl, rfl, rfl, rfl, rfl, rfl, rfl, rfl⟩

theorem State.sdo_held {s : State} (hheld : s.station.inReset = true) (point : PortPoint) :
    s.sdo point = .highImpedance := if_pos hheld

theorem State.assertReset_resetLaw (s : State) : ResetLaw s.assertReset := fun _ => rfl

/-- Settles O1: both edges of RSTn, the time between them, and the transaction that is not taken. -/
theorem powerOnResetPutsEveryBlockInItsInitialState : Obligations.PowerOnResetPutsEveryBlockInItsInitialState := by
  refine ⟨fun s => ?_, fun s c hlaw hheld hc => ?_, fun straps selected s hheld => ?_, fun s c hup hunread hc => ?_⟩
  · exact ⟨s.assertReset, rfl, State.resetAs_initial .., rfl, State.sdo_held rfl, s.assertReset_resetLaw⟩
  · refine ⟨exec_held hlaw hheld hc, ?_, State.sdo_held hheld⟩
    rw [← hlaw hheld]
    exact State.resetAs_initial ..
  · have hreleased : exec (.powerOnReset (.released straps selected)) s = .next (s.releaseReset straps selected) :=
      congrArg Host.Outcome.next (if_pos hheld)
    exact ⟨_, hreleased, State.resetAs_initial .., rfl, rfl, rfl⟩
  · obtain ⟨effect, heffect⟩ := exec_portCommand hc
    refine ⟨fun n => ⟨by simp [State.sdo, hup], by simp [State.sdo, hup, hunread]⟩, _, heffect s, ?_, ?_⟩
    · exact State.transact_unread hup hunread _
    · rw [State.transact_unread hup hunread]
      exact ⟨hup, rfl⟩

/-! ### The laws after reset -/

theorem Steady.resetAs {q : Prop} (straps : Station) (held unread : Bool) (pending : List Instr) :
    Steady q held (State.resetAs straps held unread pending) where
  tables _ := ⟨rfl, rfl, rfl, rfl, rfl⟩
  requests _ := by simp [RequestLaw, State.resetAs, State.afterReset]
  modes _ := by simp [ModeLaw, State.resetAs, State.afterReset, State.departingOwed]
  line := rfl

/-- Settles O57: each law from the invariant it belongs to, which holds after reset. -/
theorem lawsHoldAtReset : Obligations.LawsHoldAtReset := by
  obtain ⟨hevents, hrequests, hreplies, hspan⟩ := Fits.afterReset (ev := True) (rq := True) (rp := True) (sp := True) 1
  obtain ⟨hbuffers, hlimits, hqueued⟩ := Stored.afterReset (b := True) (l := True) (q := True) 1
  have hcoherent := Coherent.afterReset (w := True) (d := True) 1
  have hmodes : ModeLaw State.reset := (Steady.resetAs (q := True) 1 false false []).modes trivial
  exact ⟨hevents trivial, hrequests trivial, hreplies trivial, hbuffers trivial, hlimits trivial, hqueued trivial,
    hspan trivial, hcoherent.tables, hcoherent.ownership, hcoherent.subscription,
    (matched_iff_workLaw (hrequests trivial).2.2).mp (hcoherent.work trivial), hmodes,
    (drained_iff_drainLaw hcoherent.ownership).mp (hcoherent.drain trivial), nofun⟩

/-! ### Every step -/

/-- POWER_ON_RESET leaves the state after reset, or nothing changed (R165, log 2). -/
theorem execPowerOnReset_cases {edge : ResetEdge} {s t : State} (he : execPowerOnReset edge s = .next t) :
    t = s.assertReset ∨ (∃ straps selected, t = s.releaseReset straps selected) ∨ t = s := by
  cases edge with
  | asserted =>
    cases he
    exact .inl rfl
  | released straps selected =>
    have ht : t = if s.station.inReset then s.releaseReset straps selected else s := (Host.Outcome.next.inj he).symm
    split at ht
    · exact .inr (.inl ⟨straps, selected, ht⟩)
    · exact .inr (.inr ht)

theorem Steady.step {s t : State} (h : Steady True s.station.inReset s) (he : step s = .next t) :
    ∃ line, Steady True line t := by
  unfold Machine.step at he
  split at he
  · exact ⟨_, h.tick.of_next he⟩
  · rename_i c rest _
    have hfront : Steady True s.station.inReset ({ s with pending := rest } : State) := h.of_move
    by_cases hc : ∃ edge, c = .powerOnReset edge
    · obtain ⟨edge, rfl⟩ := hc
      obtain rfl | ⟨straps, selected, rfl⟩ | rfl := execPowerOnReset_cases he
      · exact ⟨_, Steady.resetAs ..⟩
      · exact ⟨_, Steady.resetAs ..⟩
      · exact ⟨_, hfront⟩
    · exact ⟨_, hfront.exec (not_exists.mp hc) he⟩

/-- A command under the reset law: held, the station stays as it is; else only the assertion of RSTn holds it. -/
theorem ResetLaw.exec {s t : State} (h : ResetLaw s) {c : Instr} (he : exec c s = .next t) : ResetLaw t := by
  by_cases hc : ∃ edge, c = .powerOnReset edge
  · obtain ⟨edge, rfl⟩ := hc
    obtain rfl | ⟨straps, selected, rfl⟩ | rfl := execPowerOnReset_cases he
    · exact s.assertReset_resetLaw
    · exact nofun
    · exact h
  · have hother := not_exists.mp hc
    have hs : Steady False s.station.inReset s := ⟨False.elim, False.elim, False.elim, rfl⟩
    intro hheld
    have hbefore : s.station.inReset = true := (hs.exec hother he).line.symm.trans hheld
    have hsame := exec_held h hbefore fun straps selected => hother (.released straps selected)
    obtain rfl := Host.Outcome.next.inj (hsame.symm.trans he)
    exact h hheld

theorem ResetLaw.step {s t : State} (h : ResetLaw s) (he : step s = .next t) : ResetLaw t := by
  unfold Machine.step at he
  split at he
  · cases he
    intro hheld
    rw [← h hheld]
    rfl
  · rename_i c rest _
    have hfront : ResetLaw ({ s with pending := rest } : State) := fun hheld =>
      congrArg (fun u : State => ({ u with pending := rest } : State)) (h hheld)
    exact hfront.exec he

/-- Settles O56: the three laws together by the invariant `Steady`, the reset law alone. -/
theorem everyStepKeepsTheStationStateLaw : Obligations.EveryStepKeepsTheStationStateLaw := by
  intro s t he
  refine ⟨fun ⟨htables, hrequests, hmodes⟩ => ?_, fun h => h.step he⟩
  have h : Steady True s.station.inReset s := ⟨fun _ => htables, fun _ => hrequests, fun _ => hmodes, rfl⟩
  obtain ⟨line, hafter⟩ := h.step he
  exact ⟨hafter.tables trivial, hafter.requests trivial, hafter.modes trivial⟩

end Sys2Proof.Machine

/-! ## Requests on the station but WITHDRAW (O5, O7, O9, O10), and the duplicate-number event (O36). -/

namespace Sys2Proof.Machine

/-! ### LOAD_STARTUP -/

open Classical in
/-- The field that LOAD_STARTUP reports is the first, by its index, out of its range (R151, R152). -/
theorem badField_eq (r : StartupRecord) :
    badField r =
      if ¬ FieldInRange r 1 then some 1 else if ¬ FieldInRange r 2 then some 2 else if ¬ FieldInRange r 3 then some 3
      else if ¬ FieldInRange r 4 then some 4 else if ¬ FieldInRange r 5 then some 5
      else if ¬ FieldInRange r 6 then some 6 else if ¬ FieldInRange r 7 then some 7
      else if ¬ FieldInRange r 8 then some 8 else if ¬ FieldInRange r 9 then some 9
      else if ¬ FieldInRange r 10 then some 10 else if ¬ FieldInRange r 11 then some 11
      else if ¬ FieldInRange r 12 then some 12 else if ¬ FieldInRange r 13 then some 13
      else if ¬ FieldInRange r 14 then some 14 else if ¬ FieldInRange r 15 then some 15 else none := by
  simp only [badField, FieldInRange, not_and_or, not_le, Bool.or_eq_true, decide_eq_true_eq, gt_iff_lt]

theorem badField_eq_none {r : StartupRecord} (h : ∀ n, 1 ≤ n → n ≤ 15 → FieldInRange r n) : badField r = none := by
  simp [badField_eq, h]

theorem badField_eq_some {r : StartupRecord} {n : Nat} (hlow : 1 ≤ n) (hhigh : n ≤ 15)
    (hbelow : ∀ m, 1 ≤ m → m < n → FieldInRange r m) (hn : ¬ FieldInRange r n) :
    badField r = some (BitVec.ofNat 8 n) := by
  interval_cases n <;> simp [badField_eq, hbelow, hn]

theorem CellStore.queuesEmpty_iff (c : CellStore) : c.queuesEmpty = true ↔ ∀ n, (c.queue n).cells = [] := by
  refine ⟨fun h n => ?_, fun h => ?_⟩
  · have hall := List.all_eq_true.mp h n (by cases n <;> simp [allQueues])
    exact List.isEmpty_iff.mp hall
  · exact List.all_eq_true.mpr fun n _ => List.isEmpty_iff.mpr (h n)

/-- LOAD_STARTUP with its checks in order (R152). -/
theorem execLoadStartup_open {s : State} (h : PortOpen s) (tag : Octet) (f : StartupRecord) :
    exec (.loadStartup tag f) s =
      .next (if s.station.mode ≠ .detached then s.respond .wrongState []
        else if s.store.queuesEmpty = false ∨ s.store.fifo ≠ [] then s.respond .queuesNotEmpty []
        else
          match badField f with
          | some index => s.respond .badField [index]
          | none => (s.acceptStartup f).respond .ok []) :=
  congrArg _ (State.transact_open h _)

/-- Settles O5: each refusal is one branch of the ordered checks; an accepted request is `State.acceptStartup`. -/
theorem loadStartupIsJudgedInOrderAndLoadsTheRecordWhole :
    Obligations.LoadStartupIsJudgedInOrderAndLoadsTheRecordWhole := by
  intro tag f s hopen
  have hexec := execLoadStartup_open hopen tag f
  refine ⟨fun hmode => ?_, fun hmode hstored => ?_, fun hmode hqueues hfifo n hlow hhigh hbelow hn => ?_,
    fun hmode hqueues hfifo hfields => ?_⟩
  · rw [if_pos hmode] at hexec
    exact ⟨_, hexec, State.respond_onlyAnswers ..⟩
  · have hsome : s.store.queuesEmpty = false ∨ s.store.fifo ≠ [] := by
      refine hstored.imp_left fun ⟨n, hn⟩ => ?_
      rw [← Bool.not_eq_true, s.store.queuesEmpty_iff]
      exact fun hnone => hn (hnone n)
    rw [if_neg (not_not_intro hmode), if_pos hsome] at hexec
    exact ⟨_, hexec, State.respond_onlyAnswers ..⟩
  · rw [if_neg (not_not_intro hmode), if_neg (by simp [s.store.queuesEmpty_iff.mpr hqueues, hfifo]),
      badField_eq_some hlow hhigh hbelow hn] at hexec
    exact ⟨_, hexec, State.respond_onlyAnswers ..⟩
  · rw [if_neg (not_not_intro hmode), if_neg (by simp [s.store.queuesEmpty_iff.mpr hqueues, hfifo]),
      badField_eq_none hfields] at hexec
    refine ⟨_, hexec, rfl, rfl, fun n => by cases n <;> rfl, rfl, rfl, rfl, fun p hp => ?_, rfl⟩
    cases p <;> simp_all [Part.same]

/-! ### ATTACH -/

/-- The checks of ATTACH behind the common ones, in order (R154). -/
theorem firstFailing_attachChecks {s : State} {tag : Octet} (h : PassesCommonChecks s tag) :
    firstFailing (s.attachChecks tag) =
      if s.transmitterOn = true then some .wrongState
      else if s.station.mode = .detached ∧ s.station.startup = none then some .notLoaded
      else if s.station.number = 0 ∨ s.station.number = 63 then some .badStation
      else none := by
  unfold State.attachChecks
  rw [firstFailing_append h.longChecks]
  simp [firstFailing, State.loaded]

/-- A refused ATTACH answers the result of the check that failed, and does nothing else (R154). -/
theorem execAttach_refused {s : State} {tag : Octet} {r : Result} (h : PortOpen s)
    (hr : firstFailing (s.attachChecks tag) = some r) :
    ∃ t, exec (.attach tag) s = .next t ∧ OnlyAnswers [r.code] s t := by
  refine ⟨s.respond r [], ?_, State.respond_onlyAnswers ..⟩
  show execAttach tag s = _
  unfold execAttach
  rw [State.transact_open h, hr]

theorem execAttach_accepted {s : State} {tag : Octet} (h : PortOpen s)
    (hr : firstFailing (s.attachChecks tag) = none) :
    exec (.attach tag) s = .next ((s.acceptAttach tag).respond .ok []) := by
  show execAttach tag s = _
  unfold execAttach
  rw [State.transact_open h, hr]

theorem State.transmitterOn_eq_false_iff (s : State) :
    s.transmitterOn = false ↔ s.station.mode = .detached ∨ ∃ reason, s.station.mode = .muted reason := by
  unfold State.transmitterOn
  cases s.station.mode <;> simp

theorem State.listenTime_loaded {s : State} {r : StartupRecord} (h : s.station.startup = some r) :
    s.listenTime = r.listenMultiple.toNat * (10 * r.presenceInterval.toNat) := by
  unfold State.listenTime
  rw [State.presenceTime_loaded h, State.record_loaded h]

/-- Settles O7: the refusals are branches of the ordered checks; an accepted request is `State.acceptAttach`. -/
theorem attachIsRefusedOrTakesANewEpochAndListens : Obligations.AttachIsRefusedOrTakesANewEpochAndListens := by
  refine ⟨fun tag s hcommon => ?_, fun tag s r hcommon hmode hr hzero hlast => ?_⟩
  · have hfirst := firstFailing_attachChecks hcommon
    have hrefused (r : Result) (hr : firstFailing (s.attachChecks tag) = some r) := execAttach_refused hcommon.1 hr
    refine ⟨fun hmode => hrefused .wrongState ?_, fun hmode hloaded => hrefused .notLoaded ?_,
      fun hmode hnumber => hrefused .badStation ?_⟩
    · have hon : s.transmitterOn = true := by
        rw [← Bool.not_eq_false, s.transmitterOn_eq_false_iff]
        rcases hmode with hm | hm | hm <;> simp [hm]
      rw [hfirst, if_pos hon]
    · rw [hfirst, if_neg (by simp [(s.transmitterOn_eq_false_iff).mpr (.inl hmode)]), if_pos ⟨hmode, hloaded⟩]
    · have hoff : s.transmitterOn = false := (s.transmitterOn_eq_false_iff).mpr (hmode.imp_left And.left)
      have hloaded : ¬ (s.station.mode = .detached ∧ s.station.startup = none) := by
        rintro ⟨hdetached, hnone⟩
        rcases hmode with ⟨-, hsome⟩ | ⟨reason, hmuted⟩
        · exact hsome hnone
        · simp [hmuted] at hdetached
      rw [hfirst, if_neg (by simp [hoff]), if_neg hloaded, if_pos hnumber]
  · have hpass : firstFailing (s.attachChecks tag) = none := by
      rw [firstFailing_attachChecks hcommon, if_neg (by simp [(s.transmitterOn_eq_false_iff).mpr hmode]),
        if_neg (by simp [hr]), if_neg (not_or.mpr ⟨hzero, hlast⟩)]
    refine ⟨_, execAttach_accepted hcommon.1 hpass, ?_, ?_, rfl, fun p hp => ?_, rfl⟩
    · rw [State.respond_station, State.acceptAttach, State.presenceTime_loaded hr, State.listenTime_loaded hr]
      rfl
    · rw [State.respond_span, State.acceptAttach, State.record_loaded hr]
      rfl
    · cases p <;> simp_all [Part.same]

/-! ### RESTART and READ_STATION -/

/-- Settles O9: the state after RESTART, part by part. -/
theorem restartDiscardsAllWorkAndStoresRestarted : Obligations.RestartDiscardsAllWorkAndStoresRestarted := by
  intro tag s hopen
  have hexec : exec (.restart tag) s = .next (s.restarted.respond .ok []) := congrArg _ (State.transact_open hopen _)
  have hentry (c : Channel) : (s.restarted.respond .ok []).entry c = (s.entry c).restarted :=
    State.entry_of_mapEntries (s := s) (f := ChannelEntry.restarted) (by decide) rfl c
  exact ⟨_, hexec, rfl, rfl, rfl, fun _ => rfl, fun _ => rfl, fun _ => rfl, hentry, rfl, rfl, rfl,
    fun n => by cases n <;> rfl, rfl, rfl, rfl, rfl, rfl⟩

/-- Settles O10: the layout, octet by octet. -/
theorem readStationReturnsStateAndCounters : Obligations.ReadStationReturnsStateAndCounters := by
  intro tag s hopen
  have hexec : exec (.readStation tag) s = .next (s.respond .ok s.stationOctets) :=
    congrArg _ (State.transact_open hopen _)
  refine ⟨_, hexec, ?_⟩
  have honly : OnlyAnswers (0 :: s.stationOctets) s (s.respond .ok s.stationOctets) := s.respond_onlyAnswers ..
  generalize s.respond .ok s.stationOctets = t at honly ⊢
  have hmode : s.station.mode.code =
      match s.station.mode with
      | .detached => 0 | .listening => 1 | .active => 2 | .withdrawing => 3 | .muted _ => 4 := by
    cases s.station.mode <;> rfl
  have hreason : s.station.mode.reasonCode =
      match s.station.mode with
      | .muted .spanFailures => 1 | .muted .duplicateNumber => 2 | _ => 0 := by
    cases s.station.mode with
    | muted reason => cases reason <;> rfl
    | _ => rfl
  rw [State.stationOctets, hmode, hreason, stationOctet_eq, (presenceBit_eq _).1] at honly
  simp only [State.loaded, numberOctets, octetOf, List.flatMap_cons, List.flatMap_nil, List.append_assoc,
    List.cons_append, List.nil_append, List.append_nil] at honly ⊢
  exact honly

/-! ### The duplicate-number event -/

/-- Settles O36: the event by the station state, the completion of ATTACH before DETACHED is entered. -/
theorem duplicateNumberEventActsByTheStationState : Obligations.DuplicateNumberEventActsByTheStationState := by
  intro s duplicates hattempt hduplicates
  have hcounter : countUp s.span.duplicates = duplicates := hduplicates.symm
  obtain ⟨u, hu⟩ : ∃ u : State, u = { s with span := { s.span with duplicates := duplicates } } := ⟨_, rfl⟩
  have hexec (hon : s.station.mode ≠ .detached) : exec .duplicateNumberEvent s = .next s.duplicateNumber :=
    congrArg Host.Outcome.next (if_pos ⟨by simpa [State.receiverOn] using hon, hattempt⟩)
  refine ⟨fun hmode => ?_, fun reason hmode => ?_, fun w hmode hrequests => ?_, fun hmode => ?_⟩
  · exact congrArg Host.Outcome.next (if_neg (by simp [State.receiverOn, hmode]))
  · rw [hexec (by simp [hmode]), State.duplicateNumber, hmode, hcounter]
  · obtain ⟨v, hv⟩ : ∃ v : State,
        v = u.completeHeld (some w) { result := .duplicate, station := some s.station.number } := ⟨_, rfl⟩
    have hattach : u.stationRequest .attach = some w := by simp [State.stationRequest, hu, hrequests]
    have hdetached : s.duplicateNumber = v.enterDetached := by
      rw [State.duplicateNumber, hmode, hcounter, ← hu, hattach, hv]
    have hfound : u.requestWith w = some ⟨w, .attach, none⟩ := by simp [State.requestWith, hu, hrequests]
    obtain ⟨hport, hevents⟩ :=
      State.complete_some (s := u) { result := .duplicate, station := some s.station.number } hfound
    have hstation : v.station = s.station := by
      rw [hv, State.completeHeld_station_of_mode (by simp [hu, hmode]), hu]
    have hspan : v.span = { s.span with duplicates := duplicates } := by simp [hv, hu]
    refine ⟨v.enterDetached, (hexec (by simp [hmode])).trans (congrArg _ hdetached), ?_, ?_, fun _ => rfl,
      fun c => ?_, ?_, ?_, fun p hp => ?_, by simp [hv, hu]⟩
    · rw [State.enterDetached, hstation]
    · rw [State.enterDetached, hspan]
    · rw [State.enterDetached_entry, State.entry_of_channels (s := s) (by simp [hv, hu])]
    · refine ((congrArg State.port hv).trans hport).trans ?_
      simp [hu, hrequests]
    · refine ((congrArg State.events hv).trans hevents).trans ?_
      rw [hu]
      rfl
    · cases p <;> simp_all [Part.same]
  · have hmuted : s.duplicateNumber = u.enterMuted .duplicateNumber := by
      rcases hmode with hm | hm <;> rw [State.duplicateNumber, hm, hcounter, ← hu]
    refine ⟨_, hexec (by rcases hmode with hm | hm <;> simp [hm]), ?_⟩
    rw [hmuted, ← hu]
    exact u.enterMuted_spec .duplicateNumber

end Sys2Proof.Machine

/-! ## WITHDRAW (O8): abandoned work, releases and leaves, one stage after another (R158). -/

namespace Sys2Proof.Machine

/-! ### Folds whose steps each touch one thing -/

section
variable {α β κ : Type} {I : State → Prop} {f : State → α → State} {obs : State → β}

/-- What no step of a fold touches is as it was. -/
theorem foldl_untouched (hI : ∀ t a, I t → I (f t a)) {l : List α} (hkeep : ∀ a ∈ l, ∀ t, I t → obs (f t a) = obs t)
    {s : State} (hs : I s) : obs (l.foldl f s) = obs s := by
  induction l generalizing s with
  | nil => rfl
  | cons a rest ih =>
    rw [List.foldl_cons, ih (fun b hb => hkeep b (List.mem_cons_of_mem _ hb)) (hI s a hs),
      hkeep a List.mem_cons_self s hs]

/-- What one step of a fold touches, and no step with another key, is as that step leaves it. -/
theorem foldl_touched_once (hI : ∀ t a, I t → I (f t a)) {key : α → κ} {l : List α}
    (hl : l.Pairwise fun b c => key b ≠ key c) {a : α} (ha : a ∈ l)
    (hother : ∀ b ∈ l, key b ≠ key a → ∀ t, I t → obs (f t b) = obs t) {g : β → β}
    (hself : ∀ t, I t → obs (f t a) = g (obs t)) {s : State} (hs : I s) : obs (l.foldl f s) = g (obs s) := by
  induction l generalizing s with
  | nil => cases ha
  | cons b rest ih =>
    obtain ⟨hb, hrest⟩ := List.pairwise_cons.mp hl
    have hothers := fun c hc => hother c (List.mem_cons_of_mem b hc)
    rw [List.foldl_cons]
    rcases List.mem_cons.mp ha with rfl | ha
    · rw [foldl_untouched hI (fun c hc => hothers c hc (hb c hc).symm) (hI s a hs), hself s hs]
    · rw [ih hrest ha hothers (hI s b hs), hother b List.mem_cons_self (hb a ha) s hs]

end

section
variable {d : Prop} {s t : State}

/-! ### The rows of the tables -/

theorem Coherent.slotAt_of_mem (h : Coherent True d none s) {row : Nat × Slot} (hrow : row ∈ s.slots) :
    s.slotAt row.1 = some row.2 := FMap.find?_of_mem h.tables.wf_slots hrow

theorem Coherent.contextAt_of_mem (h : Coherent True d none s) {row : Nat × Context} (hrow : row ∈ s.contexts) :
    s.contextAt row.1 = some row.2 := FMap.find?_of_mem h.tables.wf_contexts hrow

/-! ### One piece of work abandoned -/

/-- The tag that abandoned work holds. -/
def Abandoned.tag : Abandoned → Option Octet
  | .claim _ sl => sl.tag
  | .join _ k => k.tag

/-- The kind of request that abandoned work serves. -/
def Abandoned.kind : Abandoned → Option RequestKind
  | .claim _ sl => sl.phase.request
  | .join _ k => k.state.request

/-- The request that abandoned work answers. -/
def Abandoned.request (a : Abandoned) : Option PendingRequest :=
  a.tag.bind fun w => a.kind.map fun kind => ⟨w, kind, some a.channel⟩

/-- What abandoning makes of the channel's entry (R3, R66). -/
def Abandoned.freed : Abandoned → ChannelEntry → ChannelEntry
  | .claim _ _, e => e.toFree
  | .join _ _, e => e.unsubscribed

theorem State.entry_abandon (s : State) (a : Abandoned) (c : Channel) :
    (s.abandon a).entry c = if c = a.channel then a.freed (s.entry c) else s.entry c := by
  cases a with
  | claim i sl =>
    obtain ⟨-, -, hself, hother, -⟩ := s.freeSlot_spec i sl.channel none
    rw [State.entry_of_channels (s := s.freeSlot i sl.channel none) (by simp [State.abandon])]
    split
    · rename_i hc
      exact hc ▸ hself
    · rename_i hc
      exact hother c hc
  | join i k =>
    obtain ⟨-, -, hself, hother, -⟩ := s.freeContext_spec i k.channel
    rw [State.entry_of_channels (s := s.freeContext i k.channel) (by simp [State.abandon])]
    split
    · rename_i hc
      exact hc ▸ hself
    · rename_i hc
      exact hother c hc

theorem State.slots_abandon_claim (s : State) (i : Nat) (sl : Slot) :
    (s.abandon (.claim i sl)).slots = FMap.erase s.slots i := by simp [State.abandon, State.freeSlot]

theorem State.slots_abandon_join (s : State) (i : Nat) (k : Context) : (s.abandon (.join i k)).slots = s.slots := by
  simp [State.abandon]

theorem State.contexts_abandon_claim (s : State) (i : Nat) (sl : Slot) :
    (s.abandon (.claim i sl)).contexts = s.contexts := by simp [State.abandon]

theorem State.contexts_abandon_join (s : State) (i : Nat) (k : Context) :
    (s.abandon (.join i k)).contexts = FMap.erase s.contexts i := by simp [State.abandon, State.freeContext]

theorem State.abandon_tested (s : State) (a : Abandoned) : WithdrawalTested s (s.abandon a) := by
  cases a with
  | claim i sl =>
    obtain ⟨-, -, -, -, htested⟩ := s.freeSlot_spec i sl.channel none
    exact htested.completeHeld ..
  | join i k =>
    obtain ⟨-, -, -, -, htested⟩ := s.freeContext_spec i k.channel
    exact htested.completeHeld ..

/-- Abandoning leaves nothing remaining where nothing remained. -/
theorem State.abandon_nothingRemains (a : Abandoned) (h : s.nothingRemains = true) :
    (s.abandon a).nothingRemains = true := by
  obtain ⟨hslots, hcontexts, hrequests⟩ := State.nothingRemains_iff.mp h
  cases a with
  | claim i sl =>
    refine State.completeHeld_nothingRemains _ _ (State.nothingRemains_iff.mpr ⟨?_, ?_, ?_⟩)
    · simp [State.freeSlot, hslots, FMap.erase]
    · simpa using hcontexts
    · simpa using hrequests
  | join i k =>
    refine State.completeHeld_nothingRemains _ _ (State.nothingRemains_iff.mpr ⟨?_, ?_, ?_⟩)
    · simpa using hslots
    · simp [State.freeContext, hcontexts, FMap.erase]
    · simpa using hrequests

/-- No tag twice: a pending request is the one its tag finds (R175). -/
theorem State.requestWith_of_mem (hn : (s.port.requests.map (fun r => r.tag)).Nodup) {r : PendingRequest}
    (hr : r ∈ s.port.requests) : s.requestWith r.tag = some r := by
  obtain ⟨x, hx⟩ : ∃ x, s.requestWith r.tag = some x :=
    Option.isSome_iff_exists.mp (List.find?_isSome.mpr ⟨r, hr, by simp⟩)
  obtain ⟨hmem, htag⟩ := State.requestWith_spec hx
  exact hx.trans (congrArg some (eq_of_tag_eq hn hmem hr htag))

/-- The pending request with the tag of current work is the request the work serves (R177). -/
theorem Coherent.requestWith_of_current (h : Coherent True d none s) {a : Abandoned} (ha : a.Current s) :
    a.tag.bind s.requestWith = a.request := by
  have hnodup := (h.work trivial).nodup
  have hserved : ∀ w, a.tag = some w → ∃ kind, a.kind = some kind ∧ ⟨w, kind, some a.channel⟩ ∈ s.port.requests := by
    obtain ⟨hslots, hcontexts, -⟩ := (matched_iff_workLaw hnodup).mp (h.work trivial)
    cases a with
    | claim i sl => exact fun w hw => hslots i sl w ha.1 hw
    | join i k => exact fun w hw => hcontexts i k w ha hw
  unfold Abandoned.request
  cases htag : a.tag with
  | none => rfl
  | some w =>
    obtain ⟨kind, hkind, hmem⟩ := hserved w htag
    rw [hkind]
    exact State.requestWith_of_mem hnodup hmem

/-- Abandoned work ends its request ABANDONED (R40, R82). -/
theorem Coherent.abandon_ends (h : Coherent True d none s) {a : Abandoned} (ha : a.Current s) :
    (s.abandon a).events =
        ⟨s.events.records ++ a.request.toList.map (Ending.completes { result := .abandoned }), s.events.lost⟩ ∧
      ∀ r, r ∈ (s.abandon a).port.requests ↔ r ∈ s.port.requests ∧ r ∉ a.request.toList := by
  have hended : Ended a.tag { result := .abandoned } s (s.abandon a) := by
    cases a with
    | claim i sl => exact (State.completeHeld_ended ..).of_same (by simp) (by simp)
    | join i k => exact (State.completeHeld_ended ..).of_same (by simp) (by simp)
  have hfound := h.requestWith_of_current ha
  unfold Ended at hended
  cases hr : a.request with
  | none =>
    rw [hfound, hr] at hended
    obtain ⟨hport, hevents⟩ := hended
    simp [hport, hevents]
  | some r =>
    rw [hfound, hr] at hended
    obtain ⟨hport, hevents⟩ := hended
    have hnodup := (h.work trivial).nodup
    obtain ⟨w, -, hw⟩ := Option.bind_eq_some_iff.mp (hfound.trans hr)
    obtain ⟨hmem, -⟩ := State.requestWith_spec hw
    refine ⟨by simp [hevents], fun x => ?_⟩
    rw [hport, mem_eraseP_tag hnodup, Option.toList_some, List.mem_singleton]
    exact and_congr_right fun hx => not_congr ⟨eq_of_tag_eq hnodup hx hmem, congrArg _⟩

/-! ### All the work of a withdrawal abandoned -/

theorem Coherent.claim_mem_abandonedWork (h : Coherent True d none s) {i : Nat} {sl : Slot} :
    .claim i sl ∈ s.abandonedWork ↔ s.slotAt i = some sl ∧ sl.phase = .claiming := by
  refine ⟨fun ha => h.abandonedWork_current _ ha, fun ⟨hat, hp⟩ => ?_⟩
  rw [State.abandonedWork, (sortByKey_perm ..).mem_iff, List.mem_append]
  exact .inl (List.mem_filterMap.mpr ⟨(i, sl), FMap.mem_of_find? hat, if_pos hp⟩)

theorem Coherent.join_mem_abandonedWork (h : Coherent True d none s) {i : Nat} {k : Context} :
    .join i k ∈ s.abandonedWork ↔ s.contextAt i = some k ∧ k.state = .joining := by
  refine ⟨fun ha => ⟨h.abandonedWork_current _ ha, ?_⟩, fun ⟨hat, hp⟩ => ?_⟩
  · rw [State.abandonedWork, (sortByKey_perm ..).mem_iff, List.mem_append, List.mem_filterMap, List.mem_filterMap] at ha
    rcases ha with ⟨row, -, ha⟩ | ⟨row, -, ha⟩
    · split at ha <;> cases ha
    · split at ha
      · rename_i hp
        cases ha
        exact hp
      · cases ha
  · rw [State.abandonedWork, (sortByKey_perm ..).mem_iff, List.mem_append]
    exact .inr (List.mem_filterMap.mpr ⟨(i, k), FMap.mem_of_find? hat, if_pos hp⟩)

/-- A channel has a slot or a context, not both, and no two of one kind (R5). -/
theorem Coherent.channel_ne_of_apart (h : Coherent True d none s) {a b : Abandoned} (ha : a.Current s)
    (hb : b.Current s) (hab : a.Apart b) : a.channel ≠ b.channel := by
  have hcross {i j : Nat} {sl : Slot} {k : Context} (hs : s.slotAt i = some sl) (hk : s.contextAt j = some k) :
      sl.channel ≠ k.channel := fun he => by
    obtain ⟨hview, -⟩ := h.entry_of_slot hs
    obtain ⟨hlocal, -⟩ := h.entry_of_context hk
    rw [← he, hview, Phase.view_isLocal] at hlocal
    cases hlocal
  match a, b with
  | .claim i sl, .claim j x => exact fun he => hab (h.ownership.index_eq hb.1 ha.1 he)
  | .join i k, .join j x => exact fun he => hab (h.subscription.index_eq hb ha he)
  | .claim i sl, .join j k => exact hcross ha.1 hb
  | .join i k, .claim j sl => exact (hcross hb.1 ha).symm

/-- The work a withdrawal abandons stands in strictly ascending channel number (R158). -/
theorem Coherent.abandonedWork_ascending (h : Coherent True d none s) :
    s.abandonedWork.Pairwise fun a b => a.channel.toNat < b.channel.toNat := by
  have hsorted : s.abandonedWork.Pairwise fun a b => a.channel.toNat ≤ b.channel.toNat := sortByKey_sorted ..
  refine (hsorted.and h.abandonedWork_apart).imp_of_mem fun {a b} ha hb ⟨hle, hapart⟩ => ?_
  have hne := h.channel_ne_of_apart (h.abandonedWork_current a ha) (h.abandonedWork_current b hb) hapart
  exact lt_of_le_of_ne hle fun he => hne (BitVec.eq_of_toNat_eq he)

theorem Coherent.abandonedWork_channels (h : Coherent True d none s) :
    s.abandonedWork.Pairwise fun a b => a.channel ≠ b.channel :=
  h.abandonedWork_ascending.imp fun hlt he => absurd (congrArg BitVec.toNat he) (ne_of_lt hlt)

/-- The state once the work that a withdrawal abandons is gone. -/
def State.abandonWork (s : State) : State := s.abandonedWork.foldl State.abandon s

theorem Coherent.abandonWork (h : Coherent True d none s) : Coherent True d none s.abandonWork :=
  foldl_keeps (P := Coherent True d none) (Q := fun s a => a.Current s) (R := Abandoned.Apart)
    (fun _ _ hs ha => hs.abandon ha) (fun _ _ _ _ _ hab hb => hb.abandon hab) h.abandonedWork_apart h
    h.abandonedWork_current

theorem Coherent.slotAt_abandonWork (h : Coherent True d none s) (i : Nat) :
    s.abandonWork.slotAt i = (s.slotAt i).filter fun sl => sl.phase ≠ .claiming := by
  have hother (b : Abandoned) (hb : b ∈ s.abandonedWork) (hne : ∀ sl, b = .claim i sl → False) (t : State) :
      (t.abandon b).slotAt i = t.slotAt i := by
    cases b with
    | claim j x =>
      refine (State.slotAt_of_erase (t.slots_abandon_claim j x) i).trans (if_neg ?_)
      rintro rfl
      exact hne x rfl
    | join j k => exact State.slotAt_of_slots (t.slots_abandon_join j k) i
  by_cases hclaim : ∃ sl, s.slotAt i = some sl ∧ sl.phase = .claiming
  · obtain ⟨sl, hat, hp⟩ := hclaim
    have hmem := h.claim_mem_abandonedWork.mpr ⟨hat, hp⟩
    rw [hat, Option.filter_some_neg (by simp [hp])]
    refine foldl_touched_once (I := fun _ => True) (obs := fun t => t.slotAt i) (g := fun _ => none)
      (fun _ _ _ => trivial) h.abandonedWork_channels hmem (fun b hb hne t _ => hother b hb ?_ t) (fun t _ => ?_)
      trivial
    · rintro x rfl
      obtain ⟨hx, -⟩ := h.claim_mem_abandonedWork.mp hb
      exact hne (congrArg Slot.channel (Option.some.inj (hx.symm.trans hat)))
    · exact (State.slotAt_of_erase (t.slots_abandon_claim i sl) i).trans (if_pos rfl)
  · rw [not_exists] at hclaim
    have hkept : s.abandonWork.slotAt i = s.slotAt i :=
      foldl_untouched (I := fun _ => True) (obs := fun t => t.slotAt i) (fun _ _ _ => trivial)
        (fun b hb t _ => hother b hb (fun sl he => hclaim sl (h.claim_mem_abandonedWork.mp (he ▸ hb))) t) trivial
    rw [hkept]
    cases hat : s.slotAt i with
    | none => rfl
    | some sl => exact (Option.filter_some_pos (by simpa using fun hp => hclaim sl ⟨hat, hp⟩)).symm

theorem Coherent.contextAt_abandonWork (h : Coherent True d none s) (i : Nat) :
    s.abandonWork.contextAt i = (s.contextAt i).filter fun k => k.state ≠ .joining := by
  have hother (b : Abandoned) (hb : b ∈ s.abandonedWork) (hne : ∀ k, b = .join i k → False) (t : State) :
      (t.abandon b).contextAt i = t.contextAt i := by
    cases b with
    | claim j x => exact State.contextAt_of_contexts (t.contexts_abandon_claim j x) i
    | join j k =>
      refine (State.contextAt_of_erase (t.contexts_abandon_join j k) i).trans (if_neg ?_)
      rintro rfl
      exact hne k rfl
  by_cases hjoin : ∃ k, s.contextAt i = some k ∧ k.state = .joining
  · obtain ⟨k, hat, hp⟩ := hjoin
    have hmem := h.join_mem_abandonedWork.mpr ⟨hat, hp⟩
    rw [hat, Option.filter_some_neg (by simp [hp])]
    refine foldl_touched_once (I := fun _ => True) (obs := fun t => t.contextAt i) (g := fun _ => none)
      (fun _ _ _ => trivial) h.abandonedWork_channels hmem (fun b hb hne t _ => hother b hb ?_ t) (fun t _ => ?_)
      trivial
    · rintro x rfl
      obtain ⟨hx, -⟩ := h.join_mem_abandonedWork.mp hb
      exact hne (congrArg Context.channel (Option.some.inj (hx.symm.trans hat)))
    · exact (State.contextAt_of_erase (t.contexts_abandon_join i k) i).trans (if_pos rfl)
  · rw [not_exists] at hjoin
    have hkept : s.abandonWork.contextAt i = s.contextAt i :=
      foldl_untouched (I := fun _ => True) (obs := fun t => t.contextAt i) (fun _ _ _ => trivial)
        (fun b hb t _ => hother b hb (fun k he => hjoin k (h.join_mem_abandonedWork.mp (he ▸ hb))) t) trivial
    rw [hkept]
    cases hat : s.contextAt i with
    | none => rfl
    | some k => exact (Option.filter_some_pos (by simpa using fun hp => hjoin k ⟨hat, hp⟩)).symm

/-- Abandoned work changes the entry of its own channel. -/
theorem Coherent.entry_abandonWork_of_mem (h : Coherent True d none s) {a : Abandoned} (ha : a ∈ s.abandonedWork) :
    s.abandonWork.entry a.channel = a.freed (s.entry a.channel) :=
  foldl_touched_once (I := fun _ => True) (obs := fun t => t.entry a.channel) (g := a.freed) (fun _ _ _ => trivial)
    h.abandonedWork_channels ha (fun b _ hne t _ => (t.entry_abandon b _).trans (if_neg (Ne.symm hne)))
    (fun t _ => (t.entry_abandon a _).trans (if_pos rfl)) trivial

/-- The slot of a local view, whose phase the view shows (R2). -/
theorem OwnershipLaw.slot_of_view (h : OwnershipLaw s) {c : Channel} {p : Phase} (hv : (s.entry c).view = p.view) :
    ∃ i sl, s.slotAt i = some sl ∧ sl.channel = c ∧ sl.phase = p ∧ (s.entry c).slotIndex = some i ∧
      (s.entry c).owner = some s.station.number := by
  obtain ⟨hslots, hlocal, -⟩ := h
  obtain ⟨i, sl, hat, rfl⟩ := hlocal c (by rw [hv]; exact Phase.view_isLocal p)
  obtain ⟨hindex, hview, howner⟩ := hslots i sl hat
  refine ⟨i, sl, hat, rfl, ?_, hindex, howner⟩
  have hsame : sl.phase.view = p.view := hview.symm.trans hv
  cases hp : sl.phase <;> cases p <;> simp_all [Phase.view]

/-- The context of a subscribed channel, whose state the entry shows (R4). -/
theorem SubscriptionLaw.context_of_subscription (h : SubscriptionLaw s) {c : Channel} {p : ContextState}
    (hv : (s.entry c).subscription = p.shown) :
    ∃ i k, s.contextAt i = some k ∧ k.channel = c ∧ k.state = p ∧ (s.entry c).contextIndex = some i := by
  obtain ⟨hcontexts, hsome, -⟩ := h
  obtain ⟨i, k, hat, rfl⟩ := hsome c (by rw [hv]; exact ContextState.shown_ne_none p)
  obtain ⟨hindex, hshown⟩ := hcontexts i k hat
  refine ⟨i, k, hat, rfl, ?_, hindex⟩
  have hsame : k.state.shown = p.shown := hshown.symm.trans hv
  cases hp : k.state <;> cases p <;> simp_all [ContextState.shown]

theorem Coherent.entry_abandonWork_claiming (h : Coherent True d none s) {c : Channel}
    (hv : (s.entry c).view = .claiming) : s.abandonWork.entry c = (s.entry c).toFree := by
  obtain ⟨i, sl, hat, rfl, hp, -⟩ := h.ownership.slot_of_view (p := .claiming) hv
  exact h.entry_abandonWork_of_mem (h.claim_mem_abandonedWork.mpr ⟨hat, hp⟩)

theorem Coherent.entry_abandonWork_joining (h : Coherent True d none s) {c : Channel}
    (hv : (s.entry c).subscription = .joining) : s.abandonWork.entry c = (s.entry c).unsubscribed := by
  obtain ⟨i, k, hat, rfl, hp, -⟩ := h.subscription.context_of_subscription (p := .joining) hv
  exact h.entry_abandonWork_of_mem (h.join_mem_abandonedWork.mpr ⟨hat, hp⟩)

theorem Coherent.entry_abandonWork_other (h : Coherent True d none s) {c : Channel}
    (hv : (s.entry c).view ≠ .claiming) (hsub : (s.entry c).subscription ≠ .joining) :
    s.abandonWork.entry c = s.entry c := by
  refine foldl_untouched (I := fun _ => True) (obs := fun t => t.entry c) (fun _ _ _ => trivial) (fun a ha t _ => ?_)
    trivial
  refine (t.entry_abandon a c).trans (if_neg ?_)
  rintro rfl
  cases a with
  | claim i sl =>
    obtain ⟨hat, hp⟩ := h.claim_mem_abandonedWork.mp ha
    exact hv ((h.entry_of_slot hat).1.trans (by rw [hp]; rfl))
  | join i k =>
    obtain ⟨hat, hp⟩ := h.join_mem_abandonedWork.mp ha
    exact hsub ((h.entry_of_context hat).2.2.trans (by rw [hp]; rfl))

/-- The HELD slots are those there were, in their order. -/
theorem Coherent.held_abandonWork (h : Coherent True d none s) :
    s.abandonWork.slots.filter (fun row => row.2.phase = .held) = s.slots.filter (fun row => row.2.phase = .held) := by
  refine (foldl_keeps (P := fun t => Coherent True d none t ∧
      t.slots.filter (fun row => row.2.phase = .held) = s.slots.filter (fun row => row.2.phase = .held))
    (Q := fun s a => a.Current s) (R := Abandoned.Apart) (fun t a ht ha => ⟨ht.1.abandon ha, ?_⟩)
    (fun _ _ _ _ _ hab hb => hb.abandon hab) h.abandonedWork_apart ⟨h, rfl⟩ h.abandonedWork_current).2
  obtain ⟨hcoherent, hheld⟩ := ht
  rw [← hheld]
  cases a with
  | claim i sl =>
    obtain ⟨hat, hp⟩ := ha
    rw [State.slots_abandon_claim, FMap.erase, List.filter_filter]
    refine List.filter_congr fun row hrow => ?_
    have hfind := hcoherent.slotAt_of_mem hrow
    by_cases hi : row.1 = i
    · have hsame : row.2 = sl := Option.some.inj (hfind.symm.trans (hi ▸ hat))
      simp [hsame, hp]
    · simp [hi]
  | join i k => rw [State.slots_abandon_join]

/-- The requests of a list of abandoned work, in its order. -/
def abandonedRequests (l : List Abandoned) : List PendingRequest := l.filterMap Abandoned.request

theorem abandonedRequests_cons (a : Abandoned) (l : List Abandoned) :
    abandonedRequests (a :: l) = a.request.toList ++ abandonedRequests l := by
  unfold abandonedRequests
  cases hr : a.request <;> simp [hr]

/-- Work abandoned piece by piece ends the requests one behind another (R158, R183). -/
theorem Coherent.foldl_abandon_ends {l : List Abandoned} (h : Coherent True d none s) (hl : l.Pairwise Abandoned.Apart)
    (hcurrent : ∀ a ∈ l, a.Current s) :
    (l.foldl State.abandon s).events =
        ⟨s.events.records ++ (abandonedRequests l).map (Ending.completes { result := .abandoned }), s.events.lost⟩ ∧
      ∀ r, r ∈ (l.foldl State.abandon s).port.requests ↔ r ∈ s.port.requests ∧ r ∉ abandonedRequests l := by
  induction l generalizing s with
  | nil => simp [abandonedRequests]
  | cons a rest ih =>
    obtain ⟨hapart, hrest⟩ := List.pairwise_cons.mp hl
    have ha := hcurrent a List.mem_cons_self
    obtain ⟨hevents, hrequests⟩ := h.abandon_ends ha
    obtain ⟨hevents', hrequests'⟩ := ih (h.abandon ha) hrest fun b hb =>
      (hcurrent b (List.mem_cons_of_mem _ hb)).abandon (hapart b hb)
    rw [List.foldl_cons, abandonedRequests_cons]
    refine ⟨by simp [hevents', hevents], fun r => ?_⟩
    rw [hrequests', hrequests, List.mem_append, not_or, and_assoc]

theorem Coherent.abandonWork_ends (h : Coherent True d none s) :
    s.abandonWork.events =
        ⟨s.events.records ++ (abandonedRequests s.abandonedWork).map (Ending.completes { result := .abandoned }),
          s.events.lost⟩ ∧
      ∀ r, r ∈ s.abandonWork.port.requests ↔ r ∈ s.port.requests ∧ r ∉ abandonedRequests s.abandonedWork :=
  h.foldl_abandon_ends h.abandonedWork_apart h.abandonedWork_current

theorem Abandoned.channel_of_request {a : Abandoned} {r : PendingRequest} (h : a.request = some r) :
    r.channel = some a.channel := by
  obtain ⟨w, -, hw⟩ := Option.bind_eq_some_iff.mp h
  obtain ⟨kind, -, rfl⟩ := Option.map_eq_some_iff.mp hw
  rfl

theorem Coherent.abandonedRequests_ascending (h : Coherent True d none s) :
    (abandonedRequests s.abandonedWork).Pairwise
      fun a b => (a.channel.getD 0).toNat < (b.channel.getD 0).toNat := by
  refine h.abandonedWork_ascending.filterMap _ fun a b hab r hr r' hr' => ?_
  rw [Abandoned.channel_of_request hr, Abandoned.channel_of_request hr']
  exact hab

/-- The abandoned requests are the pending ones whose tag is held by a CLAIMING slot or a JOINING context. -/
theorem Coherent.mem_abandonedRequests (h : Coherent True d none s) (r : PendingRequest) :
    r ∈ abandonedRequests s.abandonedWork ↔ r ∈ s.port.requests ∧
      ((∃ i sl, s.slotAt i = some sl ∧ sl.phase = .claiming ∧ sl.tag = some r.tag) ∨
        (∃ i k, s.contextAt i = some k ∧ k.state = .joining ∧ k.tag = some r.tag)) := by
  have hfound {a : Abandoned} (ha : a ∈ s.abandonedWork) :
      a.request = some r ↔ r ∈ s.port.requests ∧ a.tag = some r.tag := by
    rw [← h.requestWith_of_current (h.abandonedWork_current a ha)]
    constructor
    · intro hr
      obtain ⟨w, hw, hwith⟩ := Option.bind_eq_some_iff.mp hr
      obtain ⟨hmem, rfl⟩ := State.requestWith_spec hwith
      exact ⟨hmem, hw⟩
    · rintro ⟨hmem, htag⟩
      rw [htag]
      exact State.requestWith_of_mem (h.work trivial).nodup hmem
  rw [abandonedRequests, List.mem_filterMap]
  constructor
  · rintro ⟨a, ha, hr⟩
    obtain ⟨hmem, htag⟩ := (hfound ha).mp hr
    refine ⟨hmem, ?_⟩
    cases a with
    | claim i sl =>
      obtain ⟨hat, hp⟩ := h.claim_mem_abandonedWork.mp ha
      exact .inl ⟨i, sl, hat, hp, htag⟩
    | join i k =>
      obtain ⟨hat, hp⟩ := h.join_mem_abandonedWork.mp ha
      exact .inr ⟨i, k, hat, hp, htag⟩
  · rintro ⟨hmem, ⟨i, sl, hat, hp, htag⟩ | ⟨i, k, hat, hp, htag⟩⟩
    · have ha := h.claim_mem_abandonedWork.mpr ⟨hat, hp⟩
      exact ⟨_, ha, (hfound ha).mpr ⟨hmem, htag⟩⟩
    · have ha := h.join_mem_abandonedWork.mpr ⟨hat, hp⟩
      exact ⟨_, ha, (hfound ha).mpr ⟨hmem, htag⟩⟩

/-- The tests while work is abandoned, and one more at the end, are one test (R159). -/
theorem State.foldl_abandon_tested (l : List Abandoned) (s : State) :
    WithdrawalTested s (l.foldl State.abandon s).testWithdrawal := by
  induction l generalizing s with
  | nil => exact State.testWithdrawal_tested rfl
  | cons a rest ih =>
    refine (s.abandon_tested a).trans (ih (s.abandon a)) fun hr => ?_
    have hremains : (rest.foldl State.abandon (s.abandon a)).nothingRemains = true :=
      List.foldlRecOn (motive := fun t => t.nothingRemains = true) rest State.abandon hr
        fun _ ht b _ => State.abandon_nothingRemains b ht
    rwa [State.nothingRemains_of_same (s := rest.foldl State.abandon (s.abandon a)) (by simp) (by simp) (by simp)]

end

end Sys2Proof.Machine

namespace Sys2Proof.Machine

section
variable {d : Prop} {s t : State}

/-! ### The HELD slots released -/

/-- A HELD slot as its release without a tag leaves it: with its snapshot where its marker is at the FIFO's head at once
(R43, R45). -/
def State.released (s : State) (sl : Slot) : Slot :=
  if s.store.fifo = [] then SnapshotOf s { sl with phase := .releasing, tag := none }
  else { sl with phase := .releasing, tag := none }

/-- A release acts in t as it would in s: no marker at the FIFO's head, the FIFO empty or not alike, and the same Station
Controller. -/
def ReleasesAlike (s t : State) : Prop :=
  headMarkers t.store.fifo = [] ∧ (t.store.fifo = [] ↔ s.store.fifo = []) ∧ t.station = s.station

/-- The FIFO's being empty and the record decide how a slot is released. -/
theorem State.released_of_same (hempty : t.store.fifo = [] ↔ s.store.fifo = [])
    (hstartup : t.station.startup = s.station.startup) (sl : Slot) : t.released sl = s.released sl := by
  have hrecord : t.record = s.record := by unfold State.record; rw [hstartup]
  unfold State.released
  rw [SnapshotOf_of_record hrecord]
  simp only [hempty]

theorem State.withdrawSlot_held {row : Nat × Slot} (h : row.2.phase = .held) :
    s.withdrawSlot row = s.startRelease row.1 row.2 none := if_pos h

theorem State.withdrawSlot_unheld {row : Nat × Slot} (h : row.2.phase ≠ .held) : s.withdrawSlot row = s := if_neg h

/-- The FIFO behind the release of one slot. -/
theorem State.fifo_withdrawSlot (h : headMarkers s.store.fifo = []) (row : Nat × Slot) :
    (s.withdrawSlot row).store.fifo =
      if row.2.phase = .held then if s.store.fifo = [] then [] else s.store.fifo ++ [.marker row.2.channel]
      else s.store.fifo := by
  by_cases hp : row.2.phase = .held
  · obtain ⟨-, -, hstore⟩ := State.startRelease_spec s row.1 row.2 none h
    rw [if_pos hp, State.withdrawSlot_held hp, hstore]
  · rw [if_neg hp, State.withdrawSlot_unheld hp]

theorem ReleasesAlike.withdrawSlot (h : ReleasesAlike s t) (row : Nat × Slot) :
    ReleasesAlike s (t.withdrawSlot row) := by
  obtain ⟨hhead, hempty, hstation⟩ := h
  have hfifo := State.fifo_withdrawSlot hhead row
  refine ⟨?_, ?_, by simpa using hstation⟩
  · rw [hfifo]
    split
    · split
      · rfl
      · rename_i hne
        rw [headMarkers_append_marker hhead, if_neg hne]
    · exact hhead
  · rw [hfifo, ← hempty]
    split
    · split
      · rename_i he
        simp [he]
      · rename_i hne
        simp [hne]
    · rfl

/-- The state once every HELD slot is released. -/
def State.withdrawSlots (s : State) : State := s.slots.foldl State.withdrawSlot s

theorem Coherent.withdrawSlots (h : Coherent True False none s) : Coherent True False none s.withdrawSlots := by
  refine foldl_keeps (P := Coherent True False none) (Q := SlotRowCurrent False) (R := fun a b => a.1 ≠ b.1)
    (fun _ _ hs ha => hs.withdrawSlot ha) (fun s a b hs _ hab hb => ?_) (FMap.rows_pairwise h.tables.wf_slots) h
    fun row hrow => ⟨row.2, FMap.find?_of_mem h.tables.wf_slots hrow, rfl, fun _ _ => rfl⟩
  by_cases hp : a.2.phase = .held
  · rw [State.withdrawSlot_held hp]
    exact hb.startRelease hs hab none
  · rwa [State.withdrawSlot_unheld hp]

theorem Coherent.slotAt_withdrawSlots (h : Coherent True d none s) (hhead : headMarkers s.store.fifo = []) (i : Nat) :
    s.withdrawSlots.slotAt i = (s.slotAt i).map fun sl => if sl.phase = .held then s.released sl else sl := by
  have hstart : ReleasesAlike s s := ⟨hhead, Iff.rfl, rfl⟩
  have hother (row : Nat × Slot) (hne : row.1 ≠ i) (t : State) (ht : ReleasesAlike s t) :
      (t.withdrawSlot row).slotAt i = t.slotAt i := by
    obtain ⟨hthead, -⟩ := ht
    by_cases hp : row.2.phase = .held
    · obtain ⟨-, -, hothers, -⟩ := State.startRelease_frame t row.1 row.2 none hthead
      rw [State.withdrawSlot_held hp]
      exact hothers i (Ne.symm hne)
    · rw [State.withdrawSlot_unheld hp]
  cases hat : s.slotAt i with
  | none =>
    refine (foldl_untouched (I := ReleasesAlike s) (obs := fun t => t.slotAt i) (fun _ row ht => ht.withdrawSlot row)
      (fun row hrow => hother row ?_) hstart).trans hat
    rintro rfl
    obtain ⟨x, hx⟩ := FMap.exists_of_mem hrow
    exact absurd (hat.symm.trans hx) (by simp)
  | some sl =>
    refine (foldl_touched_once (I := ReleasesAlike s) (obs := fun t => t.slotAt i) (key := Prod.fst)
      (g := fun x => if sl.phase = .held then some (s.released sl) else x) (fun _ row ht => ht.withdrawSlot row)
      (FMap.rows_pairwise h.tables.wf_slots) (FMap.mem_of_find? hat) (fun row _ hne => hother row hne) (fun t ht => ?_)
      hstart).trans ?_
    · by_cases hp : sl.phase = .held
      · obtain ⟨hself, -⟩ := State.startRelease_frame t i sl none ht.1
        rw [State.withdrawSlot_held hp, if_pos hp, ← State.released_of_same ht.2.1 (congrArg _ ht.2.2)]
        exact hself
      · rw [State.withdrawSlot_unheld hp, if_neg hp]
    · rw [hat, Option.map_some, apply_ite some]

/-- The slots of a table in canonical form have different channels (R1). -/
theorem Coherent.slots_channels (h : Coherent True d none s) :
    s.slots.Pairwise fun a b => a.2.channel ≠ b.2.channel :=
  (FMap.rows_pairwise h.tables.wf_slots).imp_of_mem fun ha hb hab he =>
    hab (h.ownership.index_eq (h.slotAt_of_mem hb) (h.slotAt_of_mem ha) he)

theorem Coherent.entry_withdrawSlots_held (h : Coherent True d none s) (hhead : headMarkers s.store.fifo = [])
    {c : Channel} (hv : (s.entry c).view = .heldLocal) :
    s.withdrawSlots.entry c = { s.entry c with view := .releasing } := by
  obtain ⟨i, sl, hat, rfl, hp, hindex, howner⟩ := h.ownership.slot_of_view (p := .held) hv
  have htouched := foldl_touched_once (I := ReleasesAlike s) (obs := fun t => t.entry sl.channel)
    (key := fun row : Nat × Slot => row.2.channel) (g := ChannelEntry.toLocal .releasing s.station.number i)
    (fun _ row ht => ht.withdrawSlot row) h.slots_channels (FMap.mem_of_find? hat) (fun row _ hne t ht => ?_)
    (fun t ht => ?_) ⟨hhead, Iff.rfl, rfl⟩
  · refine htouched.trans ?_
    unfold ChannelEntry.toLocal
    rw [← hindex, ← howner]
  · by_cases hheld : row.2.phase = .held
    · obtain ⟨-, -, -, hothers, -⟩ := State.startRelease_frame t row.1 row.2 none ht.1
      rw [State.withdrawSlot_held hheld]
      exact hothers _ (Ne.symm hne)
    · rw [State.withdrawSlot_unheld hheld]
  · obtain ⟨hthead, -, hstation⟩ := ht
    obtain ⟨-, hself, -⟩ := State.startRelease_frame t i sl none hthead
    rw [State.withdrawSlot_held hp, ← hstation]
    exact hself

theorem Coherent.entry_withdrawSlots_other (h : Coherent True d none s) (hhead : headMarkers s.store.fifo = [])
    {c : Channel} (hv : (s.entry c).view ≠ .heldLocal) : s.withdrawSlots.entry c = s.entry c := by
  refine foldl_untouched (I := ReleasesAlike s) (obs := fun t => t.entry c) (fun _ row ht => ht.withdrawSlot row)
    (fun row hrow t ht => ?_) ⟨hhead, Iff.rfl, rfl⟩
  by_cases hheld : row.2.phase = .held
  · obtain ⟨-, -, -, hothers, -⟩ := State.startRelease_frame t row.1 row.2 none ht.1
    rw [State.withdrawSlot_held hheld]
    refine hothers c ?_
    rintro rfl
    obtain ⟨hview, -⟩ := h.entry_of_slot (h.slotAt_of_mem hrow)
    exact hv (hview.trans (by rw [hheld]; rfl))
  · rw [State.withdrawSlot_unheld hheld]

/-- The markers of the released slots, in ascending index, behind what the FIFO holds; an empty FIFO stays empty, each
marker being consumed at once (R45, R158). -/
theorem State.fifo_foldl_withdrawSlot (rows : List (Nat × Slot)) (h : headMarkers s.store.fifo = []) :
    (rows.foldl State.withdrawSlot s).store.fifo =
      if s.store.fifo = [] then []
      else s.store.fifo ++ (rows.filter fun row => row.2.phase = .held).map fun row => .marker row.2.channel := by
  induction rows generalizing s with
  | nil => by_cases hf : s.store.fifo = [] <;> simp [hf]
  | cons row rest ih =>
    have hstart : ReleasesAlike s s := ⟨h, Iff.rfl, rfl⟩
    obtain ⟨hhead, hempty, -⟩ := hstart.withdrawSlot row
    rw [List.foldl_cons, ih hhead]
    simp only [hempty]
    by_cases hf : s.store.fifo = []
    · simp [hf]
    · by_cases hp : row.2.phase = .held <;> simp [State.fifo_withdrawSlot h, hf, hp]

/-- A released slot remains, so the releases leave the withdrawal's test as it was (R159). -/
theorem Coherent.withdrawSlots_nothingRemains (h : Coherent True d none s) (hhead : headMarkers s.store.fifo = []) :
    s.withdrawSlots.nothingRemains = s.nothingRemains := by
  cases hslots : s.slots with
  | nil => rw [State.withdrawSlots, hslots, List.foldl_nil]
  | cons row rest =>
    have hat : s.slotAt row.1 = some row.2 := h.slotAt_of_mem (hslots ▸ List.mem_cons_self)
    rw [State.nothingRemains_of_slot hat,
      State.nothingRemains_of_slot ((h.slotAt_withdrawSlots hhead row.1).trans (congrArg _ hat))]

@[simp] theorem State.withdrawSlots_same (s : State) :
    s.withdrawSlots.contexts = s.contexts ∧ s.withdrawSlots.station = s.station ∧ s.withdrawSlots.port = s.port ∧
      s.withdrawSlots.events = s.events :=
  ⟨foldl_same (fun t => t.contexts) State.withdrawSlot (by simp) ..,
    foldl_same (fun t => t.station) State.withdrawSlot (by simp) ..,
    foldl_same (fun t => t.port) State.withdrawSlot (by simp) ..,
    foldl_same (fun t => t.events) State.withdrawSlot (by simp) ..⟩

/-! ### The subscriptions left -/

/-- The state once every JOINED or DRAINING context leaves. -/
def State.withdrawContexts (s : State) : State := s.contexts.foldl State.withdrawContext s

theorem State.contextAt_withdrawContext (s : State) (row : Nat × Context) (i : Nat) :
    (s.withdrawContext row).contextAt i =
      if (row.2.state = .joined ∨ row.2.state = .draining) ∧ i = row.1 then some (row.2.leaving none)
      else s.contextAt i := by
  unfold State.withdrawContext
  by_cases hp : row.2.state = .joined ∨ row.2.state = .draining
  · rw [if_pos hp]
    refine (State.contextAt_of_insert rfl i).trans ?_
    simp only [hp, true_and]
  · rw [if_neg hp, if_neg (hp ·.1)]

theorem State.entry_withdrawContext (s : State) (row : Nat × Context) (c : Channel) :
    (s.withdrawContext row).entry c =
      if (row.2.state = .joined ∨ row.2.state = .draining) ∧ c = row.2.channel then
        (s.entry c).subscribed .leaving row.1
      else s.entry c := by
  unfold State.withdrawContext
  by_cases hp : row.2.state = .joined ∨ row.2.state = .draining
  · rw [if_pos hp]
    refine (State.entry_setEntry ..).trans ?_
    by_cases hc : c = row.2.channel
    · rw [if_pos hc, if_pos ⟨hp, hc⟩, hc]
    · rw [if_neg hc, if_neg (hc ·.2)]
      rfl
  · rw [if_neg hp, if_neg (hp ·.1)]

theorem Coherent.contextAt_withdrawContexts (h : Coherent True d none s) (i : Nat) :
    s.withdrawContexts.contextAt i =
      (s.contextAt i).map fun k => if k.state = .joined ∨ k.state = .draining then k.leaving none else k := by
  have hother (row : Nat × Context) (hne : row.1 ≠ i) (t : State) :
      (t.withdrawContext row).contextAt i = t.contextAt i :=
    (t.contextAt_withdrawContext row i).trans (if_neg fun hi => hne hi.2.symm)
  cases hat : s.contextAt i with
  | none =>
    refine (foldl_untouched (I := fun _ => True) (obs := fun t => t.contextAt i) (fun _ _ _ => trivial)
      (fun row hrow t _ => hother row ?_ t) trivial).trans hat
    rintro rfl
    obtain ⟨x, hx⟩ := FMap.exists_of_mem hrow
    exact absurd (hat.symm.trans hx) (by simp)
  | some k =>
    refine (foldl_touched_once (I := fun _ => True) (obs := fun t => t.contextAt i) (key := Prod.fst)
      (g := fun x => if k.state = .joined ∨ k.state = .draining then some (k.leaving none) else x)
      (fun _ _ _ => trivial) (FMap.rows_pairwise h.tables.wf_contexts) (FMap.mem_of_find? hat)
      (fun row _ hne t _ => hother row hne t) (fun t _ => ?_) trivial).trans ?_
    · simp [State.contextAt_withdrawContext]
    · rw [hat, Option.map_some, apply_ite some]

theorem Coherent.contexts_channels (h : Coherent True d none s) :
    s.contexts.Pairwise fun a b => a.2.channel ≠ b.2.channel :=
  (FMap.rows_pairwise h.tables.wf_contexts).imp_of_mem fun ha hb hab he =>
    hab (h.subscription.index_eq (h.contextAt_of_mem hb) (h.contextAt_of_mem ha) he)

theorem Coherent.entry_withdrawContexts_subscribed (h : Coherent True d none s) {c : Channel}
    (hsub : (s.entry c).subscription = .joined ∨ (s.entry c).subscription = .draining) :
    s.withdrawContexts.entry c = { s.entry c with subscription := .leaving } := by
  obtain ⟨i, k, hat, rfl, hp, hindex⟩ : ∃ i k, s.contextAt i = some k ∧ k.channel = c ∧
      (k.state = .joined ∨ k.state = .draining) ∧ (s.entry c).contextIndex = some i := by
    rcases hsub with hsub | hsub
    · obtain ⟨i, k, hat, hc, hp, hindex⟩ := h.subscription.context_of_subscription (p := .joined) hsub
      exact ⟨i, k, hat, hc, .inl hp, hindex⟩
    · obtain ⟨i, k, hat, hc, hp, hindex⟩ := h.subscription.context_of_subscription (p := .draining) hsub
      exact ⟨i, k, hat, hc, .inr hp, hindex⟩
  refine (foldl_touched_once (I := fun _ => True) (obs := fun t => t.entry k.channel)
    (key := fun row : Nat × Context => row.2.channel) (g := ChannelEntry.subscribed .leaving i) (fun _ _ _ => trivial)
    h.contexts_channels (FMap.mem_of_find? hat)
    (fun row _ hne t _ => (t.entry_withdrawContext row _).trans (if_neg fun hc => hne hc.2.symm))
    (fun t _ => (t.entry_withdrawContext (i, k) _).trans (if_pos ⟨hp, rfl⟩)) trivial).trans ?_
  unfold ChannelEntry.subscribed
  rw [← hindex]

theorem Coherent.entry_withdrawContexts_other (h : Coherent True d none s) {c : Channel}
    (hjoined : (s.entry c).subscription ≠ .joined) (hdraining : (s.entry c).subscription ≠ .draining) :
    s.withdrawContexts.entry c = s.entry c := by
  refine foldl_untouched (I := fun _ => True) (obs := fun t => t.entry c) (fun _ _ _ => trivial)
    (fun row hrow t _ => ?_) trivial
  refine (t.entry_withdrawContext row c).trans (if_neg ?_)
  rintro ⟨hp, rfl⟩
  obtain ⟨-, -, hshown⟩ := h.entry_of_context (h.contextAt_of_mem hrow)
  rcases hp with hp | hp <;> rw [hp] at hshown
  · exact hjoined hshown
  · exact hdraining hshown

theorem State.nothingRemains_of_context {i : Nat} {k : Context} (hk : s.contextAt i = some k) :
    s.nothingRemains = false := by
  rw [← Bool.not_eq_true, State.nothingRemains_iff]
  rintro ⟨-, hcontexts, -⟩
  simp [State.contextAt, hcontexts] at hk

@[simp] theorem State.withdrawContexts_same (s : State) :
    s.withdrawContexts.slots = s.slots ∧ s.withdrawContexts.station = s.station ∧ s.withdrawContexts.port = s.port ∧
      s.withdrawContexts.events = s.events ∧ s.withdrawContexts.store = s.store :=
  ⟨foldl_same (fun t => t.slots) State.withdrawContext (by simp) ..,
    foldl_same (fun t => t.station) State.withdrawContext (by simp) ..,
    foldl_same (fun t => t.port) State.withdrawContext (by simp) ..,
    foldl_same (fun t => t.events) State.withdrawContext (by simp) ..,
    foldl_same (fun t => t.store) State.withdrawContext (by simp) ..⟩

theorem Coherent.withdrawContexts_nothingRemains (h : Coherent True d none s) :
    s.withdrawContexts.nothingRemains = s.nothingRemains := by
  cases hcontexts : s.contexts with
  | nil => rw [State.withdrawContexts, hcontexts, List.foldl_nil]
  | cons row rest =>
    have hat : s.contextAt row.1 = some row.2 := h.contextAt_of_mem (hcontexts ▸ List.mem_cons_self)
    rw [State.nothingRemains_of_context hat,
      State.nothingRemains_of_context ((h.contextAt_withdrawContexts row.1).trans (congrArg _ hat))]

end

end Sys2Proof.Machine

namespace Sys2Proof.Machine

/-! ### WITHDRAW -/

/-- The station as WITHDRAW finds it for its work: WITHDRAWING, with the request entered (R158). -/
def State.withdrawing (s : State) (tag : Octet) : State :=
  ({ s with station := { s.station with mode := .withdrawing } } : State).enterRequest tag .withdraw none

theorem State.acceptWithdraw_eq (s : State) (tag : Octet) :
    s.acceptWithdraw tag = (s.withdrawing tag).abandonWork.withdrawSlots.withdrawContexts.testWithdrawal := rfl

/-- WITHDRAW with its own check behind the common ones (R158). -/
theorem execWithdraw_common {s : State} {tag : Octet} (h : PassesCommonChecks s tag) :
    exec (.withdraw tag) s =
      .next (if s.station.mode ≠ .active then s.respond .notActive [] else (s.acceptWithdraw tag).respond .ok []) := by
  show execWithdraw tag s = _
  have hfirst : firstFailing (s.withdrawChecks tag) = if s.station.mode ≠ .active then some .notActive else none := by
    unfold State.withdrawChecks
    rw [firstFailing_append h.longChecks]
    simp [firstFailing]
  unfold execWithdraw
  rw [State.transact_open h.1, hfirst]
  by_cases hmode : s.station.mode = .active <;> simp [hmode]

/-- In WITHDRAWING the departing BEACON is owed once nothing remains, or was owed before (R159). -/
theorem WithdrawalTested.departingOwed_iff {s t : State} (h : WithdrawalTested s t)
    (hm : s.station.mode = .withdrawing) :
    t.departingOwed = true ↔ t.nothingRemains = true ∨ s.departingOwed = true := by
  unfold WithdrawalTested at h
  by_cases hremains : t.nothingRemains = true ∧ s.departingOwed = false
  · rw [if_pos ⟨hm, hremains⟩] at h
    have hdeparting : t.departingOwed = true := by unfold State.departingOwed; rw [h]
    simp [hdeparting, hremains.1]
  · rw [if_neg (hremains ·.2)] at h
    rw [State.departingOwed_of_station h]
    refine ⟨.inr, fun hor => hor.elim (fun hr => ?_) id⟩
    by_contra hd
    exact hremains ⟨hr, by simpa using hd⟩

section
variable {d : Prop} {s : State} {tag : Octet}

theorem Coherent.withdrawing (h : Coherent True d none s) (hr : s.requestWith tag = none) :
    Coherent True d none (s.withdrawing tag) := by
  have hmode : Coherent True d none ({ s with station := { s.station with mode := .withdrawing } } : State) :=
    h.of_ground rfl
  exact hmode.enterStation hr (.inr rfl)

@[simp] theorem State.abandon_settled (s : State) (a : Abandoned) :
    (s.abandon a).station.settled = s.station.settled := by
  cases a <;> simp [State.abandon]

@[simp] theorem State.abandonWork_settled (s : State) : s.abandonWork.station.settled = s.station.settled :=
  foldl_same (fun t => t.station.settled) State.abandon State.abandon_settled ..

@[simp] theorem State.abandonWork_store (s : State) : s.abandonWork.store = s.store :=
  foldl_same (fun t => t.store) State.abandon (by simp) ..

theorem State.headMarkers_abandonWork (h : headMarkers s.store.fifo = []) :
    headMarkers (s.withdrawing tag).abandonWork.store.fifo = [] := by
  rw [State.abandonWork_store]
  exact h

theorem State.acceptWithdraw_settled (s : State) (tag : Octet) :
    (s.acceptWithdraw tag).station.settled = (s.withdrawing tag).station.settled := by
  simp [State.acceptWithdraw_eq]

/-! ### What an accepted WITHDRAW makes of each part -/

theorem Coherent.acceptWithdraw_slotAt (h : Coherent True False none (s.withdrawing tag))
    (hhead : headMarkers s.store.fifo = []) (i : Nat) :
    (s.acceptWithdraw tag).slotAt i =
      ((s.slotAt i).filter fun sl => sl.phase ≠ .claiming).map fun sl =>
        if sl.phase = .held then s.released sl else sl := by
  have hstore : (s.withdrawing tag).abandonWork.store = s.store := State.abandonWork_store _
  have hstartup : (s.withdrawing tag).abandonWork.station.startup = (s.withdrawing tag).station.startup :=
    startup_of_settled (State.abandonWork_settled _)
  have hreleased := State.released_of_same (s := s) (by rw [hstore]) hstartup
  rw [State.acceptWithdraw_eq, State.slotAt_of_slots (s := (s.withdrawing tag).abandonWork.withdrawSlots) (by simp),
    h.abandonWork.slotAt_withdrawSlots (State.headMarkers_abandonWork hhead), h.slotAt_abandonWork]
  simp only [hreleased]
  rfl

theorem Coherent.acceptWithdraw_contextAt (h : Coherent True False none (s.withdrawing tag)) (i : Nat) :
    (s.acceptWithdraw tag).contextAt i =
      ((s.contextAt i).filter fun k => k.state ≠ .joining).map fun k =>
        if k.state = .joined ∨ k.state = .draining then k.leaving none else k := by
  rw [State.acceptWithdraw_eq,
    State.contextAt_of_contexts (s := (s.withdrawing tag).abandonWork.withdrawSlots.withdrawContexts) (by simp),
    h.abandonWork.withdrawSlots.contextAt_withdrawContexts,
    State.contextAt_of_contexts (s := (s.withdrawing tag).abandonWork) (by simp), h.contextAt_abandonWork]
  rfl

theorem Coherent.acceptWithdraw_fifo (h : Coherent True False none (s.withdrawing tag))
    (hhead : headMarkers s.store.fifo = []) :
    (s.acceptWithdraw tag).store.fifo =
      if s.store.fifo = [] then []
      else s.store.fifo ++ (s.slots.filter fun row => row.2.phase = .held).map fun row => .marker row.2.channel := by
  have hstore : (s.withdrawing tag).abandonWork.store = s.store := State.abandonWork_store _
  have hfifo := State.fifo_foldl_withdrawSlot (s := (s.withdrawing tag).abandonWork)
    (s.withdrawing tag).abandonWork.slots (State.headMarkers_abandonWork hhead)
  rw [h.held_abandonWork, hstore] at hfifo
  have hreleased : (s.acceptWithdraw tag).store.fifo = (s.withdrawing tag).abandonWork.withdrawSlots.store.fifo := by
    simp [State.acceptWithdraw_eq]
  exact hreleased.trans hfifo

/-- The releases and the leaves pass over an entry that shows neither a HELD slot nor a subscription to leave. -/
theorem Coherent.entry_withdraw_kept (h : Coherent True False none s) (hhead : headMarkers s.store.fifo = [])
    {c : Channel} (hheld : (s.entry c).view ≠ .heldLocal) (hjoined : (s.entry c).subscription ≠ .joined)
    (hdraining : (s.entry c).subscription ≠ .draining) :
    s.withdrawSlots.withdrawContexts.entry c = s.entry c := by
  have hslots := h.entry_withdrawSlots_other hhead hheld
  rw [h.withdrawSlots.entry_withdrawContexts_other (by rwa [hslots]) (by rwa [hslots]), hslots]

theorem State.acceptWithdraw_entry (s : State) (tag : Octet) (c : Channel) :
    (s.acceptWithdraw tag).entry c = (s.withdrawing tag).abandonWork.withdrawSlots.withdrawContexts.entry c :=
  State.entry_of_channels (by simp [State.acceptWithdraw_eq]) c

section
variable (h : Coherent True False none (s.withdrawing tag)) (hhead : headMarkers s.store.fifo = []) {c : Channel}
include h hhead

theorem Coherent.acceptWithdraw_entry_claiming (hv : (s.entry c).view = .claiming) :
    (s.acceptWithdraw tag).entry c = (s.entry c).toFree := by
  have habandoned : (s.withdrawing tag).abandonWork.entry c = (s.entry c).toFree := h.entry_abandonWork_claiming hv
  have hsub : (s.entry c).subscription = .none := h.subscription.eq_none_of_local (hv ▸ rfl)
  rw [State.acceptWithdraw_entry, h.abandonWork.entry_withdraw_kept (State.headMarkers_abandonWork hhead), habandoned]
    <;> simp [habandoned, ChannelEntry.toFree, hsub]

theorem Coherent.acceptWithdraw_entry_held (hv : (s.entry c).view = .heldLocal) :
    (s.acceptWithdraw tag).entry c = { s.entry c with view := .releasing } := by
  have hsub : (s.entry c).subscription = .none := h.subscription.eq_none_of_local (hv ▸ rfl)
  have habandoned : (s.withdrawing tag).abandonWork.entry c = s.entry c :=
    h.entry_abandonWork_other (fun hc => by cases hv.symm.trans hc) (fun hc => by cases hsub.symm.trans hc)
  have hreleased := h.abandonWork.entry_withdrawSlots_held (State.headMarkers_abandonWork hhead) (habandoned ▸ hv)
  rw [habandoned] at hreleased
  rw [State.acceptWithdraw_entry, h.abandonWork.withdrawSlots.entry_withdrawContexts_other, hreleased]
    <;> simp [hreleased, hsub]

theorem Coherent.acceptWithdraw_entry_joining (hv : (s.entry c).view = .free ∨ (s.entry c).view = .heldRemote)
    (hsub : (s.entry c).subscription = .joining) :
    (s.acceptWithdraw tag).entry c = (s.entry c).unsubscribed := by
  have habandoned : (s.withdrawing tag).abandonWork.entry c = (s.entry c).unsubscribed :=
    h.entry_abandonWork_joining hsub
  rw [State.acceptWithdraw_entry, h.abandonWork.entry_withdraw_kept (State.headMarkers_abandonWork hhead), habandoned]
    <;> rcases hv with hv | hv <;> simp [habandoned, ChannelEntry.unsubscribed, hv]

theorem Coherent.acceptWithdraw_entry_subscribed (hv : (s.entry c).view = .free ∨ (s.entry c).view = .heldRemote)
    (hsub : (s.entry c).subscription = .joined ∨ (s.entry c).subscription = .draining) :
    (s.acceptWithdraw tag).entry c = { s.entry c with subscription := .leaving } := by
  have habandoned : (s.withdrawing tag).abandonWork.entry c = s.entry c := by
    refine h.entry_abandonWork_other (fun hc => ?_) (fun hc => ?_)
    · rcases hv with hv | hv <;> cases hv.symm.trans hc
    · rcases hsub with hsub | hsub <;> cases hsub.symm.trans hc
  have hslots : (s.withdrawing tag).abandonWork.withdrawSlots.entry c = s.entry c := by
    refine (h.abandonWork.entry_withdrawSlots_other (State.headMarkers_abandonWork hhead) ?_).trans habandoned
    rw [habandoned]
    rcases hv with hv | hv <;> simp [hv]
  rw [State.acceptWithdraw_entry, h.abandonWork.withdrawSlots.entry_withdrawContexts_subscribed (by rwa [hslots]),
    hslots]

theorem Coherent.acceptWithdraw_entry_kept
    (hv : (s.entry c).view ≠ .claiming ∧ (s.entry c).view ≠ .heldLocal)
    (hsub : (s.entry c).subscription = .none ∨ (s.entry c).subscription = .leaving) :
    (s.acceptWithdraw tag).entry c = s.entry c := by
  obtain ⟨hclaiming, hheld⟩ := hv
  have habandoned : (s.withdrawing tag).abandonWork.entry c = s.entry c := by
    refine h.entry_abandonWork_other hclaiming (fun hc => ?_)
    rcases hsub with hsub | hsub <;> cases hsub.symm.trans hc
  rw [State.acceptWithdraw_entry, h.abandonWork.entry_withdraw_kept (State.headMarkers_abandonWork hhead), habandoned]
    <;> rcases hsub with hsub | hsub <;> simp [habandoned, hheld, hsub]

end

/-- What is written and which requests are left: the abandonments alone, and the WITHDRAW pending (R158). -/
theorem Coherent.acceptWithdraw_ends (h : Coherent True False none s) (hr : s.requestWith tag = none) :
    (s.acceptWithdraw tag).events =
        ⟨s.events.records ++ (abandonedRequests s.abandonedWork).map (Ending.completes { result := .abandoned }),
          s.events.lost⟩ ∧
      ∀ r, r ∈ (s.acceptWithdraw tag).port.requests ↔
        (r ∈ s.port.requests ∧ r ∉ abandonedRequests s.abandonedWork) ∨ r = ⟨tag, .withdraw, none⟩ := by
  obtain ⟨hevents, hrequests⟩ := (h.withdrawing hr).abandonWork_ends
  have hevents' : (s.acceptWithdraw tag).events = (s.withdrawing tag).abandonWork.events := by
    simp [State.acceptWithdraw_eq]
  have hport : (s.acceptWithdraw tag).port = (s.withdrawing tag).abandonWork.port := by simp [State.acceptWithdraw_eq]
  refine ⟨hevents'.trans hevents, fun r => ?_⟩
  have hentered : r ∈ (s.withdrawing tag).port.requests ↔ r ∈ s.port.requests ∨ r = ⟨tag, .withdraw, none⟩ := by
    simp [State.withdrawing]
  have hfresh : ⟨tag, .withdraw, none⟩ ∉ abandonedRequests s.abandonedWork := fun hmem =>
    State.requestWith_eq_none.mp hr _ ((h.mem_abandonedRequests _).mp hmem).1 rfl
  have hwork : (s.withdrawing tag).abandonedWork = s.abandonedWork := rfl
  rw [hport, hrequests, hentered, hwork]
  constructor
  · rintro ⟨hmem | rfl, hkept⟩
    · exact .inl ⟨hmem, hkept⟩
    · exact .inr rfl
  · rintro (⟨hmem, hkept⟩ | rfl)
    · exact ⟨.inl hmem, hkept⟩
    · exact ⟨.inr rfl, hfresh⟩

/-- The withdrawal's test after the whole of the work, on the Station Controller as WITHDRAW entered it (R159). -/
theorem Coherent.acceptWithdraw_tested (h : Coherent True False none (s.withdrawing tag))
    (hhead : headMarkers s.store.fifo = []) :
    WithdrawalTested (s.withdrawing tag) (s.acceptWithdraw tag) := by
  have habandoned := h.abandonWork
  have hremains : (s.withdrawing tag).abandonWork.withdrawSlots.withdrawContexts.nothingRemains =
      (s.withdrawing tag).abandonWork.nothingRemains :=
    habandoned.withdrawSlots.withdrawContexts_nothingRemains.trans
      (habandoned.withdrawSlots_nothingRemains (State.headMarkers_abandonWork hhead))
  have htested : WithdrawalTested (s.withdrawing tag) (s.withdrawing tag).abandonWork.testWithdrawal :=
    State.foldl_abandon_tested ..
  rw [State.acceptWithdraw_eq]
  generalize (s.withdrawing tag).abandonWork = u at hremains htested ⊢
  have hstation : u.withdrawSlots.withdrawContexts.station = u.station := by simp
  generalize u.withdrawSlots.withdrawContexts = v at hremains hstation ⊢
  refine htested.of_remains ?_ ?_
  · unfold State.testWithdrawal
    rw [hremains, hstation, State.departingOwed_of_station hstation]
    split <;> simp [hstation]
  · rw [State.nothingRemains_of_same (s := v) (by simp) (by simp) (by simp), hremains]
    exact (State.nothingRemains_of_same (by simp) (by simp) (by simp)).symm

theorem Coherent.acceptWithdraw_departing (h : Coherent True False none (s.withdrawing tag))
    (hhead : headMarkers s.store.fifo = []) :
    (s.acceptWithdraw tag).departingOwed = true ↔
      (s.acceptWithdraw tag).nothingRemains = true ∨ s.departingOwed = true :=
  (h.acceptWithdraw_tested hhead).departingOwed_iff (s := s.withdrawing tag) rfl

theorem State.acceptWithdraw_changesOnly (s : State) (tag : Octet) :
    ChangesOnly [.channels, .slots, .contexts, .store, .station, .port, .events] s (s.acceptWithdraw tag) := by
  refine ⟨fun p hp => ?_, by simp⟩
  cases p <;> simp_all [Part.same]

end

/-- Settles O8: the refusal is the one check behind the common ones; an accepted request is the abandonments, the
releases and the leaves, each judged on the slots, contexts and entries it touches. -/
theorem withdrawGivesBackEverythingByProtocol : Obligations.WithdrawGivesBackEverythingByProtocol := by
  intro tag s hcommon
  have hexec := execWithdraw_common hcommon
  refine ⟨fun hmode => ?_, fun hmode htables hownership hsubscription hrequests hwork hhead => ?_⟩
  · rw [if_pos hmode] at hexec
    exact ⟨_, hexec, State.respond_onlyAnswers ..⟩
  rw [if_neg (not_not_intro hmode)] at hexec
  obtain ⟨-, -, hfresh, -⟩ := hcommon
  obtain ⟨-, -, hnodup⟩ := hrequests
  have hcoherent : Coherent True False none s :=
    ⟨htables, hownership, hsubscription, fun _ => (matched_iff_workLaw hnodup).mpr hwork, False.elim⟩
  have h := hcoherent.withdrawing hfresh
  obtain ⟨hevents, hpending⟩ := hcoherent.acceptWithdraw_ends hfresh
  have hmode' := (StationController.of_settled (s.acceptWithdraw_settled tag)).1
  have hslotAt := h.acceptWithdraw_slotAt hhead
  have hcontextAt := h.acceptWithdraw_contextAt
  have hfifo := h.acceptWithdraw_fifo hhead
  have hclaiming := fun c => h.acceptWithdraw_entry_claiming hhead (c := c)
  have hheld := fun c => h.acceptWithdraw_entry_held hhead (c := c)
  have hjoining := fun c => h.acceptWithdraw_entry_joining hhead (c := c)
  have hsubscribed := fun c => h.acceptWithdraw_entry_subscribed hhead (c := c)
  have hkept := fun c => h.acceptWithdraw_entry_kept hhead (c := c)
  have hdeparting := h.acceptWithdraw_departing hhead
  have honly := s.acceptWithdraw_changesOnly tag
  generalize s.acceptWithdraw tag = u at *
  refine ⟨_, hexec, hmode', rfl, (hpending _).mpr (.inr rfl), fun i hi => ?_, fun i sl hi => ?_, hfifo, fun i hi => ?_,
    fun i k hi => ?_, fun c => ⟨hclaiming c, hheld c, fun hv => ?_, fun hv => ⟨hjoining c hv, hsubscribed c hv,
      fun hsub => ?_⟩⟩,
    ⟨abandonedRequests s.abandonedWork, hcoherent.mem_abandonedRequests, hcoherent.abandonedRequests_ascending,
      hevents, hpending⟩, hdeparting, honly.trans (u.respond_changesOnly .ok [] |>.mono (by simp))⟩
  · exact (hslotAt i).trans (by rw [hi]; rfl)
  · refine ⟨fun hp => (hslotAt i).trans ?_, fun hp => (hslotAt i).trans ?_, fun hp => (hslotAt i).trans ?_⟩
    · simp [hi, hp]
    · rcases hp with hp | hp <;> simp [hi, hp]
    · simp [hi, hp, State.released]
  · exact (hcontextAt i).trans (by rw [hi]; rfl)
  · refine ⟨fun hp => (hcontextAt i).trans ?_, fun hp => (hcontextAt i).trans ?_, fun hp => (hcontextAt i).trans ?_⟩
    · simp [hi, hp]
    · simp [hi, hp]
    · rcases hp with hp | hp <;> simp [hi, hp, Context.leaving, ContextOwed.fresh]
  · have hsub := hsubscription.eq_none_of_local (c := c) (by rcases hv with hv | hv <;> rw [hv] <;> rfl)
    exact hkept c (by rcases hv with hv | hv <;> simp [hv]) (.inl hsub)
  · exact hkept c (by rcases hv with hv | hv <;> simp [hv]) hsub

end Sys2Proof.Machine

/-! ## The local port: the common checks of the long requests (O6), ABORT (O25), request frames (O59), the step's front
command (O2), bad and incomplete requests (O26). -/

namespace Sys2Proof.Machine

/-! ### The common checks -/

/-- A check that fails decides, whatever checks stand behind its list. -/
theorem firstFailing_append_of_some {common : Checks} {r : Result} (h : firstFailing common = some r) (more : Checks) :
    firstFailing (List.append common more) = some r := by
  induction common with
  | nil => cases h
  | cons x rest ih =>
    obtain ⟨failed, result⟩ := x
    cases failed with
    | true => exact h
    | false => exact ih h

/-- The checks common to the long requests, in order (R176). -/
theorem firstFailing_longChecks (s : State) (tag : Octet) :
    firstFailing (s.longChecks tag) =
      if tag = 0 then some .badTag
      else if s.requestWith tag ≠ none then some .tagInUse
      else if 16 ≤ s.port.requests.length then some .tableFull
      else if 64 ≤ s.eventSum then some .eventsFull
      else none := by
  simp [State.longChecks, firstFailing, Config.requestPlaces, Config.eventPlaces, Option.isSome_iff_ne_none]

/-- A refused WITHDRAW answers the result of the check that failed, and does nothing else (R158). -/
theorem execWithdraw_refused {s : State} {tag : Octet} {r : Result} (h : PortOpen s)
    (hr : firstFailing (s.withdrawChecks tag) = some r) :
    ∃ t, exec (.withdraw tag) s = .next t ∧ OnlyAnswers [r.code] s t := by
  refine ⟨s.respond r [], ?_, State.respond_onlyAnswers ..⟩
  show execWithdraw tag s = _
  unfold execWithdraw
  rw [State.transact_open h, hr]

/-- A long request that fails a common check answers that check's result, and does nothing else (R176). -/
theorem exec_long_refused {s : State} {tag : Octet} {channel : Half} {c : Instr} {r : Result} (h : PortOpen s)
    (hc : c ∈ [.attach tag, .withdraw tag, .claimRequest tag channel, .releaseRequest tag channel,
      .joinRequest tag channel, .leaveRequest tag channel])
    (hr : firstFailing (s.longChecks tag) = some r) :
    ∃ t, exec c s = .next t ∧ OnlyAnswers [r.code] s t := by
  have hfirst := firstFailing_append_of_some hr
  simp only [List.mem_cons, List.not_mem_nil, or_false] at hc
  rcases hc with rfl | rfl | rfl | rfl | rfl | rfl
  · exact execAttach_refused h (hfirst _)
  · exact execWithdraw_refused h (hfirst _)
  · exact execClaimRequest_refused h (hfirst _)
  · exact execReleaseRequest_refused h (hfirst _)
  · exact execJoinRequest_refused h (hfirst _)
  · exact execLeaveRequest_refused h (hfirst _)

/-- Settles O6: each clause is one branch of the common checks, which stand before every long request's own. -/
theorem longRequestsFirstPassTheCommonChecks : Obligations.LongRequestsFirstPassTheCommonChecks := by
  intro tag channel s c hopen hc
  have hfirst := firstFailing_longChecks s tag
  have hrefused (r : Result) (hr : firstFailing (s.longChecks tag) = some r) := exec_long_refused hopen hc hr
  refine ⟨fun htag => hrefused .badTag ?_, fun htag hused => hrefused .tagInUse ?_,
    fun htag hfresh hfull => hrefused .tableFull ?_, fun htag hfresh hroom hevents => hrefused .eventsFull ?_⟩
  · rw [hfirst, if_pos htag]
  · rw [hfirst, if_neg htag, if_pos hused]
  · rw [hfirst, if_neg htag, if_neg (not_not_intro hfresh), if_pos (by omega)]
  · rw [hfirst, if_neg htag, if_neg (not_not_intro hfresh), if_neg (by omega), if_pos (by omega)]

/-! ### ABORT -/

/-- ABORT by the pending request its tag names (R178). -/
theorem execAbort_open {s : State} (h : PortOpen s) (tag : Octet) :
    exec (.abort tag) s =
      .next (match s.requestWith tag with
        | none => s.respond .noSuchTag []
        | some r =>
          match r.kind with
          | .claim => s.abortClaim tag (r.channel.getD 0)
          | .join => s.abortJoin tag (r.channel.getD 0)
          | .attach => ((s.complete tag { result := .aborted }).enterDetached).respond .ok []
          | .release | .leave | .withdraw => s.respond .notAbortable []) :=
  congrArg _ (State.transact_open h _)

/-- The records and the table after a held request that is pending has ended (R177, R183). -/
theorem Ended.of_requestWith {s t : State} {tag : Octet} {e : Ending} {r : PendingRequest} (h : Ended (some tag) e s t)
    (hr : s.requestWith tag = some r) :
    t.port = { s.port with requests := s.port.requests.eraseP (fun q => q.tag = tag) } ∧
      t.events = { s.events with records := s.events.records ++ [e.completes r] } := by
  obtain ⟨-, rfl⟩ := State.requestWith_spec hr
  unfold Ended at h
  rw [Option.bind_some, hr] at h
  exact h

section
variable {s : State} {tag : Octet} {c : Channel} {i : Nat}

/-- A claim still in its window is given up: the slot free, the entry FREE, the request ended ABORTED (R39). -/
theorem State.abortClaim_claiming {sl : Slot} (hr : s.requestWith tag = some ⟨tag, .claim, some c⟩)
    (hs : s.slotOf c = some (i, sl)) (hp : sl.phase = .claiming) :
    (s.abortClaim tag c).slotAt i = none ∧ OtherSlots i s (s.abortClaim tag c) ∧
      (s.abortClaim tag c).entry c = (s.entry c).toFree ∧ OtherEntries c s (s.abortClaim tag c) ∧
      (s.abortClaim tag c).port =
        { s.port with response := [0], requests := s.port.requests.eraseP (fun q => q.tag = tag) } ∧
      (s.abortClaim tag c).events =
        { s.events with
          records := s.events.records ++ [.completion ⟨tag, .claim, .aborted, some c, none, none, false⟩] } ∧
      WithdrawalTested s (s.abortClaim tag c) ∧
      ChangesOnly [.slots, .channels, .port, .events, .station] s (s.abortClaim tag c) := by
  have heq : s.abortClaim tag c =
      ((s.freeSlot i c none).completeHeld (some tag) { result := .aborted }).respond .ok [] := by
    unfold State.abortClaim; rw [hs]; exact if_pos hp
  rw [heq]
  obtain ⟨hat, hothers, hentry, hentries, hended, htested, honly⟩ :=
    State.endClaim_spec s i c (some tag) { result := .aborted } rfl
  obtain ⟨hport, hevents⟩ := hended.of_requestWith hr
  generalize (s.freeSlot i c none).completeHeld (some tag) { result := .aborted } = u at *
  refine ⟨hat, hothers, hentry, hentries, ?_, hevents, htested.congr rfl rfl rfl rfl,
    honly.trans (u.respond_changesOnly .ok [] |>.mono (by simp))⟩
  rw [State.respond, State.setResponse, hport]
  rfl

/-- A claim past its window is not given up (R39). -/
theorem State.abortClaim_committed {sl : Slot} (hs : s.slotOf c = some (i, sl)) (hp : sl.phase ≠ .claiming) :
    s.abortClaim tag c = s.respond .tooLate [] := by
  unfold State.abortClaim; rw [hs]; exact if_neg hp

/-- A join that waits is given up: the context free, no subscription, the request ended ABORTED (R74). -/
theorem State.abortJoin_joining {k : Context} (hr : s.requestWith tag = some ⟨tag, .join, some c⟩)
    (hk : s.contextOf c = some (i, k)) (hp : k.state = .joining) :
    (s.abortJoin tag c).contextAt i = none ∧ OtherContexts i s (s.abortJoin tag c) ∧
      (s.abortJoin tag c).entry c = (s.entry c).unsubscribed ∧ OtherEntries c s (s.abortJoin tag c) ∧
      (s.abortJoin tag c).port =
        { s.port with response := [0], requests := s.port.requests.eraseP (fun q => q.tag = tag) } ∧
      (s.abortJoin tag c).events =
        { s.events with
          records := s.events.records ++ [.completion ⟨tag, .join, .aborted, some c, none, none, false⟩] } ∧
      WithdrawalTested s (s.abortJoin tag c) ∧
      ChangesOnly [.contexts, .channels, .port, .events, .station] s (s.abortJoin tag c) := by
  have heq : s.abortJoin tag c =
      ((s.freeContext i c).completeHeld (some tag) { result := .aborted }).respond .ok [] := by
    unfold State.abortJoin; rw [hk]; exact if_pos hp
  rw [heq]
  obtain ⟨hat, hothers, hentry, hentries, hended, htested, honly⟩ :=
    State.endExchange_spec s i c (some tag) { result := .aborted } rfl
  obtain ⟨hport, hevents⟩ := hended.of_requestWith hr
  generalize (s.freeContext i c).completeHeld (some tag) { result := .aborted } = u at *
  refine ⟨hat, hothers, hentry, hentries, ?_, hevents, htested.congr rfl rfl rfl rfl,
    honly.mono (by simp) |>.trans (u.respond_changesOnly .ok [] |>.mono (by simp))⟩
  rw [State.respond, State.setResponse, hport]
  rfl

end

/-- Listening is given up: the request ended, and then DETACHED entered (R161, R178). -/
theorem State.abortAttach_spec {s : State} {tag : Octet} {r : PendingRequest} (hr : s.requestWith tag = some r)
    (hm : s.station.mode = .listening) {t : State}
    (ht : t = ((s.complete tag { result := .aborted }).enterDetached).respond .ok []) :
    t.station = { s.station with mode := .detached, presence := none, listen := none, beacon := none } ∧
      t.span = { s.span with replies := [], attempt := none, rate := none } ∧ (∀ x, t.peerAt x = none) ∧
      (∀ c, t.entry c =
        if (s.entry c).view = .heldRemote then { s.entry c with view := .free, owner := none, slotIndex := none }
        else s.entry c) ∧
      t.port = { s.port with response := [0], requests := s.port.requests.eraseP (fun q => q.tag = tag) } ∧
      t.events =
        { s.events with
          records := s.events.records ++ [.completion ⟨tag, r.kind, .aborted, r.channel, none, none, false⟩] } ∧
      ChangesOnly [.station, .span, .peers, .channels, .port, .events] s t := by
  obtain ⟨-, rfl⟩ := State.requestWith_spec hr
  obtain ⟨u, hu⟩ : ∃ u : State, u = s.complete r.tag { result := .aborted } := ⟨_, rfl⟩
  obtain ⟨hport, hevents⟩ := State.complete_some { result := .aborted } hr
  obtain ⟨-, -, -, -, hkept, -⟩ := u.enterDetached_same
  have hstation : u.station = s.station := by
    rw [hu]
    exact State.completeHeld_station_of_mode (by simp [hm]) (some r.tag) _
  rw [← hu] at ht hport hevents
  subst ht
  refine ⟨?_, ?_, fun _ => rfl, fun c => ?_, ?_, hevents, fun p hp => ?_, ?_⟩
  · simp [State.enterDetached, hstation]
  · simp [State.enterDetached, hu]
  · exact (u.enterDetached_entry c).trans (by rw [State.entry_of_channels (s := s) (by simp [hu])])
  · rw [State.respond, State.setResponse, hkept, hport]
    rfl
  · cases p <;> simp_all [Part.same]
  · simp [hu]

/-- Settles O25: one clause for each kind of pending request, and within CLAIM by the phase of its slot. -/
theorem abortActsByTheStateOfTheRequestsWork : Obligations.AbortActsByTheStateOfTheRequestsWork := by
  intro tag s hopen
  have hexec := execAbort_open hopen tag
  refine ⟨fun hnone => ?_, fun r hr => ?_⟩
  · rw [hnone] at hexec
    exact ⟨_, hexec, State.respond_onlyAnswers ..⟩
  rw [hr] at hexec
  obtain ⟨-, rfl⟩ := State.requestWith_spec hr
  obtain ⟨tag, kind, channel⟩ := r
  refine ⟨fun hkind => ?_, fun c i sl hkind hchannel hindex hat => ?_, fun c i k hkind hchannel hindex hat hstate => ?_,
    fun hkind hmode => ?_⟩
  · rcases hkind with rfl | rfl | rfl <;> exact ⟨_, hexec, State.respond_onlyAnswers ..⟩
  · obtain ⟨rfl, rfl⟩ : kind = .claim ∧ channel = some c := ⟨hkind, hchannel⟩
    have hs : s.slotOf c = some (i, sl) := State.slotOf_eq_some.mpr ⟨hindex, hat⟩
    refine ⟨fun hphase => ⟨_, hexec, ?_⟩, fun hphase => ⟨_, hexec, State.abortClaim_claiming hr hs hphase⟩⟩
    exact State.abortClaim_committed hs hphase
  · obtain ⟨rfl, rfl⟩ : kind = .join ∧ channel = some c := ⟨hkind, hchannel⟩
    exact ⟨_, hexec, State.abortJoin_joining hr (State.contextOf_eq_some.mpr ⟨hindex, hat⟩) hstate⟩
  · obtain rfl : kind = .attach := hkind
    exact ⟨_, hexec, State.abortAttach_spec hr hmode rfl⟩

/-! ### Request frames -/

theorem joinOctets_halves (h : Half) : joinOctets (highOctet h) (lowOctet h) = h :=
  ((joinOctets_eq_iff _ _ h).mpr ⟨rfl, rfl⟩).symm

/-- The parser reads the octets as the value, whatever follows them, and reads nothing where they are cut short. -/
def ReadsAs {α : Type} (parse : List Octet → Option α) (octets : List Octet) (a : α) : Prop :=
  (∀ more, parse (octets ++ more) = some a) ∧ ∀ n, n < octets.length → parse (octets.take n) = none

theorem ReadsAs.map {α β : Type} {parse : List Octet → Option α} {octets : List Octet} {a : α}
    (h : ReadsAs parse octets a) (f : α → β) : ReadsAs (fun l => (parse l).map f) octets (f a) :=
  ⟨fun more => congrArg (Option.map f) (h.1 more), fun n hn => congrArg (Option.map f) (h.2 n hn)⟩

/-- A request without parameters is read behind its tag. -/
theorem ReadsAs.nil {α : Type} (a : α) : ReadsAs (fun _ => some a) [] a :=
  ⟨fun _ => rfl, fun _ hn => absurd hn (Nat.not_lt_zero _)⟩

/-- A parser that reads nothing shorter than the octets reads nothing where they are cut short. -/
theorem ReadsAs.of_short {α : Type} {parse : List Octet → Option α} {octets : List Octet} {a : α}
    (hwhole : ∀ more, parse (octets ++ more) = some a)
    (hshort : ∀ l, l.length < octets.length → parse l = none) : ReadsAs parse octets a :=
  ⟨hwhole, fun n hn => hshort _ (by rw [List.length_take]; omega)⟩

theorem readsAs_parseOctet (o : Octet) : ReadsAs parseOctet [o] o :=
  .of_short (fun _ => rfl) fun l hl => by
    obtain rfl : l = [] := List.length_eq_zero_iff.mp (by simpa using hl)
    rfl

theorem readsAs_parseChannel (c : Half) : ReadsAs parseChannel (halfOctets c) c := by
  refine .of_short (fun _ => congrArg some (joinOctets_halves c)) fun l hl => ?_
  unfold parseChannel
  split
  · simp [halfOctets] at hl
  · rfl

theorem readsAs_parseAction (tag : Octet) (c : Half) (a : Octet) :
    ReadsAs (parseAction tag) (halfOctets c ++ [a]) (.setAction tag c a) := by
  refine .of_short (fun _ => ?_) fun l hl => ?_
  · simp [halfOctets, parseAction, joinOctets_halves]
  · unfold parseAction
    split
    · simp only [halfOctets, List.length_append, List.length_cons, List.length_nil] at hl
      omega
    · rfl

/-- SET_FILTER carries eleven octets behind its tag (R171). -/
theorem length_filterOctets (p : FilterParameters) : p.octets.length = 11 := rfl

theorem readsAs_parseFilter (p : FilterParameters) : ReadsAs parseFilter p.octets p := by
  refine .of_short (fun _ => ?_) fun l hl => ?_
  · simp [FilterParameters.octets, halfOctets, parseFilter, joinOctets_halves]
  · unfold parseFilter
    split
    · rw [length_filterOctets] at hl
      simp only [List.length_cons] at hl
      omega
    · rfl

/-- LOAD_STARTUP carries twenty octets behind its tag (R171). -/
theorem length_startupOctets (r : StartupRecord) : r.octets.length = 20 := rfl

theorem readsAs_parseStartup (r : StartupRecord) : ReadsAs parseStartup r.octets r := by
  refine .of_short (fun _ => ?_) fun l hl => ?_
  · simp [StartupRecord.octets, halfOctets, parseStartup, joinOctets_halves]
  · unfold parseStartup
    split
    · rw [length_startupOctets] at hl
      simp only [List.length_cons] at hl
      omega
    · rfl

/-- SEND's frame ends where its length octet says (R171). -/
theorem readsAs_parseSend (tag : Octet) (c : Half) {length : Octet} {payload : List Octet}
    (h : payload.length = length.toNat) :
    ReadsAs (parseSend tag) (halfOctets c ++ length :: payload) (.send tag c length payload) := by
  refine ⟨fun more => ?_, fun n hn => ?_⟩
  · simp [halfOctets, parseSend, joinOctets_halves, ← h]
  · match n with
    | 0 | 1 | 2 => rfl
    | n + 3 =>
      have hn' : n < payload.length := by simpa [halfOctets] using hn
      show parseSend tag (highOctet c :: lowOctet c :: length :: payload.take n) = none
      have hshort : ¬ length.toNat ≤ (payload.take n).length := by rw [List.length_take]; omega
      exact if_neg hshort

/-- A request code, a tag and parameters that are read as a command are that command's frame (R167, R169). -/
theorem decodeRequest_of_readsAs {code tag : Octet} {parameters : List Octet} {c : Instr}
    (hcode : isRequestCode code = true) (h : ReadsAs (parseRequest code.toNat tag) parameters c) :
    (∀ more, decodeRequest (code :: tag :: parameters ++ more) = .request c) ∧
      ∀ n, n < (code :: tag :: parameters).length →
        decodeRequest ((code :: tag :: parameters).take n) = .incomplete := by
  obtain ⟨hwhole, hcut⟩ := h
  refine ⟨fun more => ?_, fun n hn => ?_⟩
  · simp [decodeRequest, hcode, hwhole]
  · match n with
    | 0 => rfl
    | 1 => simp [decodeRequest, hcode]
    | n + 2 => simp [decodeRequest, hcode, hcut n (by simpa using hn)]

/-- A request's frame is its code, its tag and parameters that the code's parser reads as the request (R171). -/
theorem encodeRequest_readsAs {c : Instr} {frame : List Octet} (h : encodeRequest c = some frame)
    (hw : c.wellFormed = true) :
    ∃ code tag parameters, frame = code :: tag :: parameters ∧ isRequestCode code = true ∧
      ReadsAs (parseRequest code.toNat tag) parameters c := by
  cases c with
  | loadStartup tag fields => cases h; exact ⟨1, tag, _, rfl, rfl, (readsAs_parseStartup fields).map _⟩
  | attach tag => cases h; exact ⟨2, tag, _, rfl, rfl, .nil _⟩
  | withdraw tag => cases h; exact ⟨3, tag, _, rfl, rfl, .nil _⟩
  | restart tag => cases h; exact ⟨4, tag, _, rfl, rfl, .nil _⟩
  | readStation tag => cases h; exact ⟨5, tag, _, rfl, rfl, .nil _⟩
  | claimRequest tag channel => cases h; exact ⟨6, tag, _, rfl, rfl, (readsAs_parseChannel channel).map _⟩
  | releaseRequest tag channel => cases h; exact ⟨7, tag, _, rfl, rfl, (readsAs_parseChannel channel).map _⟩
  | send tag channel length payload =>
    cases h
    have hlength : payload.length = length.toNat := of_decide_eq_true hw
    exact ⟨8, tag, _, rfl, rfl, readsAs_parseSend tag channel hlength⟩
  | joinRequest tag channel => cases h; exact ⟨9, tag, _, rfl, rfl, (readsAs_parseChannel channel).map _⟩
  | leaveRequest tag channel => cases h; exact ⟨10, tag, _, rfl, rfl, (readsAs_parseChannel channel).map _⟩
  | setAction tag channel actions => cases h; exact ⟨11, tag, _, rfl, rfl, readsAs_parseAction tag channel actions⟩
  | readChannel tag channel => cases h; exact ⟨12, tag, _, rfl, rfl, (readsAs_parseChannel channel).map _⟩
  | setFilter tag parameters => cases h; exact ⟨13, tag, _, rfl, rfl, (readsAs_parseFilter parameters).map _⟩
  | readFilter tag index => cases h; exact ⟨14, tag, _, rfl, rfl, (readsAs_parseOctet index).map _⟩
  | take tag queue => cases h; exact ⟨15, tag, _, rfl, rfl, (readsAs_parseOctet queue).map _⟩
  | flush tag queue => cases h; exact ⟨16, tag, _, rfl, rfl, (readsAs_parseOctet queue).map _⟩
  | readPeer tag station => cases h; exact ⟨17, tag, _, rfl, rfl, (readsAs_parseOctet station).map _⟩
  | readEvent tag => cases h; exact ⟨18, tag, _, rfl, rfl, .nil _⟩
  | abort tag => cases h; exact ⟨19, tag, _, rfl, rfl, .nil _⟩
  | _ => cases h

/-- Settles O59: a frame is a code, a tag and parameters that their parser reads whole and never cut short. -/
theorem requestFramesDecodeToTheirRequests : Obligations.RequestFramesDecodeToTheirRequests := by
  intro c frame hframe hw
  obtain ⟨code, tag, parameters, rfl, hcode, hreads⟩ := encodeRequest_readsAs hframe hw
  exact decodeRequest_of_readsAs hcode hreads

/-! ### The step and its front command -/

/-- Settles O2: the step by the queue. -/
theorem stepRunsTheFrontCommand : Obligations.StepRunsTheFrontCommand := by
  intro c rest s h
  unfold step
  rw [h]

/-! ### Transactions that carry no request -/

/-- Request codes are 1 to 19 (R170). -/
theorem isRequestCode_eq_false {code : Octet} (h : code.toNat = 0 ∨ 20 ≤ code.toNat) : isRequestCode code = false := by
  rw [isRequestCode, Bool.and_eq_false_iff, decide_eq_false_iff_not, decide_eq_false_iff_not]
  omega

theorem execBadRequest_open {s : State} (h : PortOpen s) (code : Octet) :
    exec (.badRequest code) s = .next (if isRequestCode code then s.countFrameError else s.respond .badRequest []) :=
  congrArg _ (State.transact_open h _)

theorem execIncompleteRequest_open {s : State} (h : PortOpen s) (octets : List Octet) (bits : Nat) :
    exec (.incompleteRequest octets bits) s =
      .next (if (octets ≠ [] ∨ bits ≠ 0) ∧ decodeRequest octets = .incomplete then s.countFrameError else s) :=
  congrArg _ (State.transact_open h _)

theorem State.countFrameError_changesOnly (s : State) : ChangesOnly [.port] s s.countFrameError :=
  ⟨fun p hp => by cases p <;> simp_all [Part.same], rfl⟩

/-- Settles O26: a code that is no request code is answered, and a frame cut short is counted. -/
theorem badAndIncompleteRequestsTouchNoBlock : Obligations.BadAndIncompleteRequestsTouchNoBlock := by
  refine ⟨fun code s hopen hcode => ?_, fun octets bits s hopen hsome hcut => ?_⟩
  · have hexec := execBadRequest_open hopen code
    rw [isRequestCode_eq_false hcode, if_neg Bool.false_ne_true] at hexec
    exact ⟨_, hexec, State.respond_onlyAnswers ..⟩
  · have hexec := execIncompleteRequest_open hopen octets bits
    rw [if_pos ⟨hsome, hcut⟩] at hexec
    exact ⟨_, hexec, rfl, State.countFrameError_changesOnly s⟩

end Sys2Proof.Machine

/-! ## READ_EVENT (O24): the layout of an event record, and the removal of the oldest one. -/

namespace Sys2Proof.Machine

/-! ### The octets of a record -/

theorem RequestKind.code_eq (k : RequestKind) : k.code = KindOctet k := by cases k <;> rfl

theorem CompletionResult.code_eq (r : CompletionResult) : r.code = ResultOctet r := by cases r <;> rfl

/-- A counter's two octets are its halves (R182). -/
theorem numberOctets_toNat (n : Half) : numberOctets n.toNat = halfOctets n := by
  rw [numberOctets, BitVec.ofNat_toNat, BitVec.setWidth_eq]

/-- An octet in a field of two octets stands in the second (R182). -/
theorem numberOctets_octet (x : Octet) : numberOctets x.toNat = [0, x] := by
  have hhigh : highOctet (BitVec.ofNat 16 x.toNat) = 0 := BitVec.eq_of_toNat_eq <| by
    rw [highOctet, BitVec.extractLsb'_toNat, Nat.shiftRight_eq_div_pow]
    simp only [BitVec.toNat_ofNat, BitVec.ofNat_eq_ofNat]
    omega
  have hlow : lowOctet (BitVec.ofNat 16 x.toNat) = x := BitVec.eq_of_toNat_eq <| by
    rw [lowOctet, BitVec.extractLsb'_toNat, Nat.shiftRight_zero]
    simp only [BitVec.toNat_ofNat]
    omega
  rw [numberOctets, halfOctets, hhigh, hlow]

/-- A record's layout, field by field, with the presence bits written as values (R182). -/
theorem recordOctets_eq (kind : Octet) (unannounced : Bool) (tag request reason : Octet) (channel : Option Channel)
    (station : Option Station) (count : Option Nat) (lost : Octet) :
    recordOctets kind unannounced tag request reason channel station count lost =
      [kind,
       (if channel.isSome then 0x01 else 0) ||| (if station.isSome then 0x02 else 0) |||
         (if count.isSome then 0x04 else 0) ||| (if unannounced then 0x80 else 0),
       tag, request, reason] ++ halfOctets ((channel.getD 0).setWidth 16) ++ [(station.getD 0).setWidth 8] ++
        numberOctets (count.getD 0) ++ [lost] := by
  simp only [recordOctets, presenceBit_eq, channelOctets_eq, stationOctet_eq]

/-- The record of a notification about a peer: a station, and its epoch as the count (R181, R182). -/
theorem recordOctets_peer (kind reason : Octet) (x : Station) (epoch lost : Octet) :
    recordOctets kind false 0 0 reason none (some x) (some epoch.toNat) lost =
      [kind, 0x06, 0, 0, reason, 0, 0, x.setWidth 8, 0, epoch, lost] := by
  simp only [recordOctets_eq, Option.isSome_none, Option.isSome_some, Option.getD_some, numberOctets_octet]
  rfl

/-- The record of a notification about a channel and its owner, without a count (R181, R182). -/
theorem recordOctets_channel (kind reason : Octet) (c : Channel) (x : Station) (lost : Octet) :
    recordOctets kind false 0 0 reason (some c) (some x) none lost =
      kind :: 0x03 :: 0 :: 0 :: reason :: halfOctets (c.setWidth 16) ++ [x.setWidth 8, 0, 0, lost] := by
  simp only [recordOctets_eq, Option.isSome_none, Option.isSome_some]
  rfl

/-- The record of a notification with channel, station and count (R181, R182). -/
theorem recordOctets_counted (kind reason : Octet) (c : Channel) (x : Station) (n : Counter) (lost : Octet) :
    recordOctets kind false 0 0 reason (some c) (some x) (some n.toNat) lost =
      kind :: 0x07 :: 0 :: 0 :: reason :: halfOctets (c.setWidth 16) ++ x.setWidth 8 :: halfOctets n ++ [lost] := by
  simp only [recordOctets_eq, Option.isSome_some, Option.getD_some, numberOctets_toNat]
  rfl

/-- A notification's layout is one of three shapes, or carries no field but a reason (R181, R182). -/
theorem Notification.octets_eq (n : Notification) (lost : Octet) : n.octets lost = NotificationOctets lost n := by
  cases n with
  | peerArrived x epoch => exact recordOctets_peer ..
  | peerLost x reason epoch =>
    refine (recordOctets_peer ..).trans ?_
    cases reason <;> rfl
  | channelOrphaned c reason x =>
    refine (recordOctets_channel ..).trans ?_
    cases reason <;> rfl
  | channelReleased c reason x =>
    refine (recordOctets_channel ..).trans ?_
    cases reason <;> rfl
  | ownershipLost c x => exact recordOctets_channel ..
  | queueOverflow q c x drops =>
    refine (recordOctets_counted ..).trans ?_
    cases q <;> rfl
  | muted reason => cases reason <;> rfl
  | restarted => rfl

/-- A record's eleven octets (R182). -/
theorem EventRecord.octets_eq (e : EventRecord) : e.octets = RecordOctets e := by
  cases e with
  | completion r =>
    rw [EventRecord.octets, recordOctets_eq, r.kind.code_eq, r.result.code_eq]
    rfl
  | notification n lost => exact n.octets_eq lost

/-! ### READ_EVENT -/

theorem State.withEvents_changesOnly (s : State) (q : EventQueue) : ChangesOnly [.events] s { s with events := q } :=
  ⟨fun p hp => by cases p <;> simp_all [Part.same], rfl⟩

/-- READ_EVENT answers EMPTY while no record is stored (R186). -/
theorem execReadEvent_empty {s : State} (h : PortOpen s) (hrecords : s.events.records = []) (tag : Octet) :
    exec (.readEvent tag) s = .next (s.respond .empty []) := by
  show execReadEvent tag s = _
  unfold execReadEvent
  rw [State.transact_open h]
  simp only [hrecords]

/-- READ_EVENT removes the record at the head and answers its layout (R182, R186). -/
theorem execReadEvent_oldest {s : State} {e : EventRecord} {rest : List EventRecord} (h : PortOpen s)
    (hrecords : s.events.records = e :: rest) (tag : Octet) :
    exec (.readEvent tag) s =
      .next (State.respond { s with events := { s.events with records := rest } } .ok (RecordOctets e)) := by
  show execReadEvent tag s = _
  unfold execReadEvent
  rw [State.transact_open h]
  simp only [hrecords, e.octets_eq]

/-- Settles O24: READ_EVENT on a queue without a record, and on one with an oldest record. -/
theorem readEventRemovesTheOldestRecord : Obligations.ReadEventRemovesTheOldestRecord := by
  intro tag s hopen
  refine ⟨fun hrecords => ?_, fun e rest hrecords => ?_⟩
  · exact ⟨_, execReadEvent_empty hopen hrecords tag, State.respond_onlyAnswers ..⟩
  · have honly := s.withEvents_changesOnly { s.events with records := rest }
    exact ⟨_, execReadEvent_oldest hopen hrecords tag, rfl,
      (honly.mono (by simp)).trans ((State.respond_changesOnly ..).mono (by simp)), rfl⟩

end Sys2Proof.Machine

/-! ## Every command answers and keeps the queue (O4), and one millisecond on an empty queue (O3). -/

namespace Sys2Proof.Machine

/-! ### Every command answers a next state and keeps the queue -/

/-- The command completes, and the commands that wait are those that waited (log 2, 21). -/
def Answers (s : State) (o : Host.Outcome State Fault Refusal) : Prop := ∃ t, o = .next t ∧ t.pending = s.pending

theorem Answers.next {s t : State} (h : t.pending = s.pending) : Answers s (.next t) := ⟨t, rfl, h⟩

/-- A transaction of the local port keeps the queue as its effect does, and so does one that is not taken (R189). -/
theorem Answers.transact {s : State} {effect : State → State} (h : (effect s).pending = s.pending) :
    Answers s (.next (s.transact effect)) := by
  refine Answers.next ?_
  unfold State.transact
  split
  · rfl
  · split
    · rfl
    · exact h

/-- An intact message heard. -/
theorem Answers.receive (s : State) (h : Header) (body : Option Body) : Answers s (.next (s.receive h body)) :=
  .next (s.receive_pending h body)

/-! The requests of the local port whose effect has more than two outcomes. -/

theorem execLoadStartup_answers (tag : Octet) (fields : StartupRecord) (s : State) :
    Answers s (execLoadStartup tag fields s) := by
  refine .transact ?_
  split
  · exact s.respond_pending ..
  · split
    · exact s.respond_pending ..
    · split <;> simp

theorem execSend_answers (tag : Octet) (channel : Half) (length : Octet) (payload : List Octet) (s : State) :
    Answers s (execSend tag channel length payload s) := by
  refine .transact ?_
  split
  · exact s.countFrameError_pending
  · split <;> simp

theorem execSetAction_answers (tag : Octet) (channel : Half) (actions : Octet) (s : State) :
    Answers s (execSetAction tag channel actions s) := by
  refine .transact ?_
  split
  · exact s.respond_pending ..
  · split <;> simp

theorem execTake_answers (tag queue : Octet) (s : State) : Answers s (execTake tag queue s) := by
  refine .transact ?_
  split
  · exact s.respond_pending ..
  · dsimp only
    split <;> simp

theorem execFlush_answers (tag queue : Octet) (s : State) : Answers s (execFlush tag queue s) := by
  refine .transact ?_
  split
  · exact s.respond_pending ..
  · dsimp only
    split <;> simp

theorem execAbort_answers (tag : Octet) (s : State) : Answers s (execAbort tag s) := by
  refine .transact ?_
  split
  · exact s.respond_pending ..
  · split <;> simp

/-- A deassertion of an RSTn that is not asserted has no effect (log 2). -/
theorem execPowerOnReset_released {s : State} (h : s.station.inReset = false) (straps : Station) (selected : Bool) :
    exec (.powerOnReset (.released straps selected)) s = .next s := by
  show execPowerOnReset (.released straps selected) s = _
  rw [execPowerOnReset, h]
  rfl

/-- Both edges of RSTn keep the commands that wait (log 21). -/
theorem execPowerOnReset_answers (edge : ResetEdge) (s : State) : Answers s (execPowerOnReset edge s) := by
  refine .next ?_
  cases edge with
  | asserted => rfl
  | released straps selected =>
    show (if s.station.inReset then s.releaseReset straps selected else s).pending = s.pending
    split <;> rfl

theorem execTransmitAttempt_answers (s : State) : Answers s (execTransmitAttempt s) := by
  refine .next ?_
  split
  · split <;> simp
  · rfl

theorem execMalformedMessage_answers (octets : List Octet) (s : State) : Answers s (execMalformedMessage octets s) := by
  refine .next ?_
  split
  · exact s.receive_pending ..
  · split <;> simp

/-- Every command answers a next state and keeps the queue of waiting commands (log 2, 21). -/
theorem exec_answers (c : Instr) (s : State) : Answers s (exec c s) := by
  cases c with
  | loadStartup tag fields => exact execLoadStartup_answers tag fields s
  | attach tag => exact .transact (by split <;> simp)
  | withdraw tag => exact .transact (by split <;> simp)
  | restart tag => exact .transact (s.restarted.respond_pending ..)
  | readStation tag => exact .transact (s.respond_pending ..)
  | claimRequest tag channel => exact .transact (by split <;> simp)
  | releaseRequest tag channel => exact .transact (by split <;> simp)
  | send tag channel length payload => exact execSend_answers tag channel length payload s
  | joinRequest tag channel => exact .transact (by split <;> simp)
  | leaveRequest tag channel => exact .transact (by split <;> simp)
  | setAction tag channel actions => exact execSetAction_answers tag channel actions s
  | readChannel tag channel => exact .transact (by split <;> simp)
  | setFilter tag parameters => exact .transact (by split <;> simp)
  | readFilter tag index => exact .transact (by split <;> simp)
  | take tag queue => exact execTake_answers tag queue s
  | flush tag queue => exact execFlush_answers tag queue s
  | readPeer tag station => exact .transact (by split <;> simp)
  | readEvent tag => exact .transact (by split <;> simp)
  | abort tag => exact execAbort_answers tag s
  | badRequest code => exact .transact (by split <;> simp)
  | incompleteRequest octets bits => exact .transact (by split <;> simp)
  | powerOnReset edge => exact execPowerOnReset_answers edge s
  | transmitAttempt => exact execTransmitAttempt_answers s
  | lostContention => exact .next (by split <;> simp)
  | echo => exact .next (by split <;> simp)
  | failedAttempt cause => exact .next (by split <;> simp)
  | claimMessage header => exact .receive ..
  | holdMessage header => exact .receive ..
  | announceMessage header => exact .receive ..
  | joinMessage header => exact .receive ..
  | admitMessage header next => exact .receive ..
  | denyMessage header reason => exact .receive ..
  | leaveMessage header => exact .receive ..
  | leftMessage header => exact .receive ..
  | drainMessage header => exact .receive ..
  | drainedMessage header => exact .receive ..
  | releaseMessage header => exact .receive ..
  | dataMessage header sequence length payload => exact .receive ..
  | beaconMessage header interval => exact .receive ..
  | malformedMessage octets => exact execMalformedMessage_answers octets s
  | duplicateNumberEvent => exact .next (by split <;> simp)
  | claimWindowExpiry slot => exact .next (by (repeat' split) <;> simp)
  | resendTimerExpiry slot => exact .next (by (repeat' split) <;> simp)
  | drainTimerExpiry slot => exact .next (by (repeat' split) <;> simp)
  | joinResponseTimerExpiry context => exact .next (by (repeat' split) <;> simp)
  | leaveResponseTimerExpiry context => exact .next (by (repeat' split) <;> simp)
  | drainWaitTimerExpiry context => exact .next (by (repeat' split) <;> simp)
  | peerTimerExpiry station => exact .next (by (repeat' split) <;> simp)
  | presenceTimerExpiry => exact .next (by split <;> rfl)
  | listenTimerExpiry => exact .next (by split <;> simp)

/-- Settles O4: command by command, and the one edge of RSTn that cannot arise. -/
theorem everyCommandAnswersANextStateAndKeepsTheQueue : Obligations.EveryCommandAnswersANextStateAndKeepsTheQueue :=
  ⟨exec_answers, fun straps selected _ h => execPowerOnReset_released h straps selected⟩

end Sys2Proof.Machine

namespace Sys2Proof.Machine

/-! ### One millisecond on an empty queue: the tables -/

theorem step_empty {s : State} (h : s.pending = []) : step s = .next s.tick := by
  unfold step
  rw [h]

theorem State.tick_slotAt (s : State) (i : Nat) : s.tick.slotAt i = (s.slotAt i).map Slot.elapsed :=
  FMap.find?_mapValues ..

theorem State.tick_contextAt (s : State) (i : Nat) : s.tick.contextAt i = (s.contextAt i).map Context.elapsed :=
  FMap.find?_mapValues ..

theorem State.tick_peerAt (s : State) (x : Station) : s.tick.peerAt x = (s.peerAt x).map Peer.elapsed :=
  FMap.find?_mapValues ..

/-- One millisecond adds no row and removes none. -/
theorem TableLaw.tick {s : State} (h : TableLaw s) : TableLaw s.tick := by
  obtain ⟨hslots, hcontexts, hpeers, hchannels, hfilters⟩ := h
  exact ⟨FMap.wf_mapValues hslots _, FMap.wf_mapValues hcontexts _, FMap.wf_mapValues hpeers _, hchannels, hfilters⟩

/-! ### The expiries that wait -/

theorem dueAt_eq (timer : Option Nat) (c : Instr) : dueAt timer c = IfExpired timer c := by
  simp only [dueAt, IfExpired, expired, decide_eq_true_eq]

theorem dueSlot_eq (row : Nat × Slot) : dueSlot row = SlotExpiries row := by
  simp only [dueSlot, SlotExpiries, dueAt_eq, List.append_assoc]

theorem dueContext_eq (row : Nat × Context) : dueContext row = ContextExpiries row := by
  simp only [dueContext, ContextExpiries, dueAt_eq]

theorem duePeer_eq (row : Nat × Peer) :
    duePeer row = IfExpired (some row.2.timer) (.peerTimerExpiry (BitVec.ofNat 6 row.1)) := dueAt_eq _ _

/-- The queue after the millisecond is the list of log 4, in its order. -/
theorem State.due_eq (s : State) : s.due = ExpiriesInOrder s := by
  simp only [State.due, ExpiriesInOrder, funext dueSlot_eq, funext dueContext_eq, funext duePeer_eq, dueAt_eq,
    List.append_assoc]

theorem State.tick_pending (s : State) : s.tick.pending = ExpiriesInOrder s.tick := s.elapsed.due_eq

theorem mem_ifExpired {timer : Option Nat} {c d : Instr} : c ∈ IfExpired timer d ↔ timer = some 0 ∧ c = d := by
  unfold IfExpired
  split <;> simp [*]

/-- The commands that are expiries due in a state: the timer a command names runs and has no time left (R190). -/
def Due (t : State) : Instr → Prop
  | .claimWindowExpiry i => ∃ sl, t.slotAt i = some sl ∧ sl.window = some 0
  | .drainTimerExpiry i => ∃ sl, t.slotAt i = some sl ∧ sl.drainTimer = some 0
  | .resendTimerExpiry i => ∃ sl, t.slotAt i = some sl ∧ sl.resendTimer = some 0
  | .joinResponseTimerExpiry i => ∃ k, t.contextAt i = some k ∧ k.state = .joining ∧ k.responseTimer = some 0
  | .leaveResponseTimerExpiry i => ∃ k, t.contextAt i = some k ∧ k.state ≠ .joining ∧ k.responseTimer = some 0
  | .drainWaitTimerExpiry i => ∃ k, t.contextAt i = some k ∧ k.drainWait = some 0
  | .peerTimerExpiry x => ∃ p, t.peerAt x = some p ∧ p.timer = 0
  | .presenceTimerExpiry => t.station.presence = some 0
  | .listenTimerExpiry => t.station.listen = some 0
  | _ => False

/-- A row of a table in canonical form is found under its key, which is below the bound. -/
theorem FMap.row_found {α : Type} {bound : Nat} {m : FMap α} (hwf : FMap.wf bound m = true) {row : Nat × α}
    (h : row ∈ m) : row.1 % bound = row.1 ∧ FMap.find? m row.1 = some row.2 :=
  have hfound := FMap.find?_of_mem hwf (k := row.1) (v := row.2) h
  ⟨Nat.mod_eq_of_lt (FMap.lt_of_find? hwf hfound), hfound⟩

section
variable {t : State} {c : Instr}

theorem due_of_slot (h : TableLaw t) {row : Nat × Slot} (hrow : row ∈ t.slots) (hc : c ∈ SlotExpiries row) :
    Due t c := by
  obtain ⟨hkey, hfound⟩ := FMap.row_found h.wf_slots hrow
  have hat : t.slotAt (Fin.ofNat 32 row.1) = some row.2 := (congrArg t.slotAt hkey).trans hfound
  simp only [SlotExpiries, List.mem_append, mem_ifExpired] at hc
  obtain ⟨hexpired, rfl⟩ | ⟨hexpired, rfl⟩ | ⟨hexpired, rfl⟩ := hc
  all_goals exact ⟨row.2, hat, hexpired⟩

theorem due_of_context (h : TableLaw t) {row : Nat × Context} (hrow : row ∈ t.contexts)
    (hc : c ∈ ContextExpiries row) : Due t c := by
  obtain ⟨hkey, hfound⟩ := FMap.row_found h.wf_contexts hrow
  have hat : t.contextAt (Fin.ofNat 64 row.1) = some row.2 := (congrArg t.contextAt hkey).trans hfound
  simp only [ContextExpiries, List.mem_append, mem_ifExpired] at hc
  obtain ⟨hexpired, rfl⟩ | ⟨hexpired, rfl⟩ := hc
  · split
    · exact ⟨row.2, hat, ‹_›, hexpired⟩
    · exact ⟨row.2, hat, ‹_›, hexpired⟩
  · exact ⟨row.2, hat, hexpired⟩

theorem due_of_peer (h : TableLaw t) {row : Nat × Peer} (hrow : row ∈ t.peers)
    (hc : c ∈ IfExpired (some row.2.timer) (.peerTimerExpiry (BitVec.ofNat 6 row.1))) : Due t c := by
  obtain ⟨hkey, hfound⟩ := FMap.row_found h.wf_peers hrow
  obtain ⟨hexpired, rfl⟩ := mem_ifExpired.mp hc
  have hat : t.peerAt (BitVec.ofNat 6 row.1) = some row.2 :=
    (congrArg (FMap.find? t.peers) ((BitVec.toNat_ofNat ..).trans hkey)).trans hfound
  exact ⟨row.2, hat, Option.some.inj hexpired⟩

/-- An expiry of a slot that is found waits. -/
theorem mem_expiries_of_slot {i : Nat} {sl : Slot} (hat : t.slotAt i = some sl) (hc : c ∈ SlotExpiries (i, sl)) :
    c ∈ ExpiriesInOrder t :=
  List.mem_append_left _ (List.mem_flatMap.mpr ⟨(i, sl), FMap.mem_of_find? hat, hc⟩)

/-- An expiry of a context that is found waits. -/
theorem mem_expiries_of_context {i : Nat} {k : Context} (hat : t.contextAt i = some k)
    (hc : c ∈ ContextExpiries (i, k)) : c ∈ ExpiriesInOrder t :=
  List.mem_append_right _ (List.mem_append_left _ (List.mem_flatMap.mpr ⟨(i, k), FMap.mem_of_find? hat, hc⟩))

/-- An expiry of a peer that is PRESENT waits. -/
theorem mem_expiries_of_peer {x : Station} {p : Peer} (hat : t.peerAt x = some p)
    (hc : c ∈ IfExpired (some p.timer) (.peerTimerExpiry (BitVec.ofNat 6 x.toNat))) : c ∈ ExpiriesInOrder t := by
  simp only [ExpiriesInOrder, List.mem_append, List.mem_flatMap]
  exact .inr (.inr (.inl ⟨(x.toNat, p), FMap.mem_of_find? hat, hc⟩))

/-- Nothing waits but what is due. -/
theorem due_of_mem (h : TableLaw t) (hc : c ∈ ExpiriesInOrder t) : Due t c := by
  simp only [ExpiriesInOrder, List.mem_append, List.mem_flatMap] at hc
  obtain ⟨row, hrow, hc⟩ | ⟨row, hrow, hc⟩ | ⟨row, hrow, hc⟩ | hc | hc := hc
  · exact due_of_slot h hrow hc
  · exact due_of_context h hrow hc
  · exact due_of_peer h hrow hc
  · obtain ⟨hexpired, rfl⟩ := mem_ifExpired.mp hc
    exact hexpired
  · obtain ⟨hexpired, rfl⟩ := mem_ifExpired.mp hc
    exact hexpired

/-- All that is due waits. -/
theorem mem_of_due (hdue : Due t c) : c ∈ ExpiriesInOrder t := by
  cases c
  case claimWindowExpiry i =>
    obtain ⟨sl, hat, hexpired⟩ := hdue
    exact mem_expiries_of_slot hat (by simp [SlotExpiries, mem_ifExpired, hexpired])
  case drainTimerExpiry i =>
    obtain ⟨sl, hat, hexpired⟩ := hdue
    exact mem_expiries_of_slot hat (by simp [SlotExpiries, mem_ifExpired, hexpired])
  case resendTimerExpiry i =>
    obtain ⟨sl, hat, hexpired⟩ := hdue
    exact mem_expiries_of_slot hat (by simp [SlotExpiries, mem_ifExpired, hexpired])
  case joinResponseTimerExpiry i =>
    obtain ⟨k, hat, hstate, hexpired⟩ := hdue
    exact mem_expiries_of_context hat (by simp [ContextExpiries, mem_ifExpired, hexpired, hstate])
  case leaveResponseTimerExpiry i =>
    obtain ⟨k, hat, hstate, hexpired⟩ := hdue
    exact mem_expiries_of_context hat (by simp [ContextExpiries, mem_ifExpired, hexpired, hstate])
  case drainWaitTimerExpiry i =>
    obtain ⟨k, hat, hexpired⟩ := hdue
    exact mem_expiries_of_context hat (by simp [ContextExpiries, mem_ifExpired, hexpired])
  case peerTimerExpiry x =>
    obtain ⟨p, hat, hexpired⟩ := hdue
    exact mem_expiries_of_peer hat (by simp [mem_ifExpired, hexpired])
  case presenceTimerExpiry =>
    have hstation : t.station.presence = some 0 := hdue
    simp [ExpiriesInOrder, mem_ifExpired, hstation]
  case listenTimerExpiry =>
    have hstation : t.station.listen = some 0 := hdue
    simp [ExpiriesInOrder, mem_ifExpired, hstation]
  all_goals exact hdue.elim

end

/-- After the millisecond a command waits exactly when it is an expiry that is due. -/
theorem mem_tick_pending {s : State} (h : TableLaw s) (c : Instr) : c ∈ s.tick.pending ↔ Due s.tick c := by
  rw [s.tick_pending]
  exact ⟨due_of_mem h.tick, mem_of_due⟩

/-- Settles O3: the tables after one millisecond, and the queue as the list of the due expiries. -/
theorem emptyQueueStepIsOneMillisecond : Obligations.EmptyQueueStepIsOneMillisecond := by
  intro s hempty h
  have hwaits := mem_tick_pending h
  exact ⟨s.tick, step_empty hempty, s.tick_slotAt, s.tick_contextAt, s.tick_peerAt, rfl, rfl, rfl, rfl, rfl, rfl, rfl,
    fun _ => hwaits _, fun _ => hwaits _, fun _ => hwaits _, fun _ => hwaits _, fun _ => hwaits _, fun _ => hwaits _,
    fun _ => hwaits _, hwaits _, hwaits _, s.tick_pending⟩

end Sys2Proof.Machine
